-- ==== Sys2Proof/Word.lean ====
section
/-! DEFINITION. The two word types of the core (00_scope.md R6, R8). -/

namespace Sys2Proof

/-- u8: a register, a memory byte, an opcode (00_scope.md R8). -/
abbrev Byte := BitVec 8

/-- u16: an address, SP, PC, a register pair (00_scope.md R8). -/
abbrev Word := BitVec 16

end Sys2Proof
end

