-- ==== Sys2Proof/Machine/Bits.lean ====
section
/-! DEFINITION. Byte and word composition and sign extension (00_scope.md R8, R9, R10). -/

namespace Sys2Proof

/-- `compose16(low, high)` is `high*256 + low` (00_scope.md R9). -/
def compose16 (low high : Byte) : Word := BitVec.ofNat 16 (high.toNat * 256 + low.toNat)

/-- `decompose16(value)` is `(value[7:0], value[15:8])` (00_scope.md R10). -/
def decompose16 (value : Word) : Byte × Byte := (value.extractLsb' 0 8, value.extractLsb' 8 8)

/-- `sext_16(v)`: two's complement, extended to 16 bits (00_scope.md R8). -/
def sext16 (v : Byte) : Word := v.signExtend 16

end Sys2Proof
end

