-- ==== Sys2Proof/Config.lean ====
section
/-! DEFINITION. The implementation parameters of the core (00_scope.md R6) and the inputs it is built from
(70_reset_and_hazards.md R260). The parameters the spec leaves OPEN stand in the state as constant fields, so that a
statement about every state is a statement about every value of them. -/

namespace Sys2Proof

/-- UNSUPPORTED_POLICY (92_eei_decisions.md D1; 43_illegal_unsupported.md R221, R222). -/
inductive UnsupportedPolicy where
  | marker
  | refuse
  deriving DecidableEq, Repr

/-- OPC76_POLICY (92_eei_decisions.md D2; 41_load.md R143). -/
inductive Opc76Policy where
  | documentLoad
  | unsupported
  deriving DecidableEq, Repr

/-- CARRY_IN_MODE (92_eei_decisions.md D3; 42_alu.md R160, R161). -/
inductive CarryInMode where
  | separate
  | incrementedOperand
  | incrementedOperandWrapped
  deriving DecidableEq, Repr

/-- The three policies of 00_scope.md R6. -/
structure Config where
  unsupportedPolicy : UnsupportedPolicy
  opc76Policy : Opc76Policy
  carryInMode : CarryInMode
  deriving DecidableEq, Repr

/-- The defaults the spec names (92_eei_decisions.md D1, D2, D3). -/
def Config.defaults : Config :=
  { unsupportedPolicy := .marker, opc76Policy := .documentLoad, carryInMode := .separate }

/-- RESET_PRESET: eight u8 values (10_state.md R37; 92_eei_decisions.md D10). -/
structure Preset where
  a : Byte
  b : Byte
  c : Byte
  d : Byte
  e : Byte
  f : Byte
  h : Byte
  l : Byte
  deriving DecidableEq, Repr

/-- A preset's F has a zero low nibble (10_state.md R37; 92_eei_decisions.md D10). -/
def Preset.valid (p : Preset) : Bool := p.f.extractLsb' 0 4 == 0#4

/-- PRESUMED (log entry 4): the DMG row of 93_implementation_defined.md G18, general knowledge and not the source's. -/
def Preset.dmg : Preset :=
  { a := 0x01, f := 0xB0, b := 0x00, c := 0x13, d := 0x00, e := 0xD8, h := 0x01, l := 0x4D }

/-- PRESUMED (log entry 4): the MGB row of 93_implementation_defined.md G18. -/
def Preset.mgb : Preset :=
  { a := 0xFF, f := 0xB0, b := 0x00, c := 0x13, d := 0x00, e := 0xD8, h := 0x01, l := 0x4D }

/-- PRESUMED (log entry 4): the SGB row of 93_implementation_defined.md G18. -/
def Preset.sgb : Preset :=
  { a := 0x01, f := 0x00, b := 0x00, c := 0x14, d := 0x00, e := 0x00, h := 0xC0, l := 0x60 }

/-- PRESUMED (log entry 4): the CGB row of 93_implementation_defined.md G18. -/
def Preset.cgb : Preset :=
  { a := 0x11, f := 0x80, b := 0x00, c := 0x00, d := 0xFF, e := 0x56, h := 0x00, l := 0x0D }

/-- Everything a core is built from (70_reset_and_hazards.md R260; 20_memory.md R64): the register preset, ROM_IMAGE,
M_ERAM, ERAM_INIT (the bytes of external RAM from bank 0 offset 0 on; a byte past the list's end is 0x00, and what lies
past the banks is dropped), IE_INIT and the policies. -/
structure Construction where
  preset : Preset
  romImage : List Byte
  mEram : Nat
  eramInit : List Byte
  ieInit : Byte
  config : Config
  deriving DecidableEq, Repr

/-- The inputs `State.reset` is built from: PRESUMED preset (log entry 4), DESIGN CHOICE no cartridge bytes (log entry 5),
no external RAM and IE = 0x00 (log entry 6), the spec's default policies (log entry 3). -/
def Construction.unloaded : Construction :=
  { preset := .dmg, romImage := [], mEram := 0, eramInit := [], ieInit := 0x00, config := .defaults }

end Sys2Proof
end

