-- ==== Sys2Proof/Machine/Memory.lean ====
section
/-! DEFINITION. One backing store as plain data: a list of (index, byte) pairs in one canonical form, indexes strictly
rising and no entry equal to what an unlisted index reads as. -/

namespace Sys2Proof.Machine

/-- The contents of one backing store (20_memory.md R51), keyed by `bank * bankSize + offset`. -/
abbrev Memory := List Host.Cell

/-- What an unlisted cell reads as: the zero fill of 20_memory.md R64. ROM, external RAM and IE, which R64 does not
zero-fill, list every cell of their construction input that is not 0x00. -/
def Memory.unlisted : Byte := 0x00

/-- The byte at an index. -/
def Memory.get : Memory → Nat → Byte
  | [], _ => Memory.unlisted
  | (k, b) :: rest, i => if i = k then b else Memory.get rest i

/-- The store with byte `v` at index `i`, in canonical form. -/
def Memory.set : Memory → Nat → Byte → Memory
  | [], i, v => if v = Memory.unlisted then [] else [(i, v)]
  | (k, b) :: rest, i, v =>
    if i < k then (if v = Memory.unlisted then (k, b) :: rest else (i, v) :: (k, b) :: rest)
    else if i = k then (if v = Memory.unlisted then rest else (i, v) :: rest)
    else (k, b) :: Memory.set rest i v

/-- Canonical from index `lo` on. -/
def Memory.wfFrom : Nat → Memory → Bool
  | _, [] => true
  | lo, (k, b) :: rest => decide (lo ≤ k) && !(b == Memory.unlisted) && Memory.wfFrom (k + 1) rest

/-- The canonical form. -/
def Memory.wf (m : Memory) : Bool := Memory.wfFrom 0 m

/-- No listed index at or past `size`. -/
def Memory.within (size : Nat) (m : Memory) : Bool := m.all fun c => decide (c.1 < size)

/-- The store that holds the bytes of a list at the indexes from `i` on. -/
def Memory.ofBytesFrom : Nat → List Byte → Memory
  | _, [] => []
  | i, b :: bs =>
    if b = Memory.unlisted then Memory.ofBytesFrom (i + 1) bs else (i, b) :: Memory.ofBytesFrom (i + 1) bs

/-- The store that holds the bytes of a list from index 0 on (20_memory.md R56: `rom[b][o]` is `ROM_IMAGE[b*16384 + o]`). -/
def Memory.ofBytes (bytes : List Byte) : Memory := Memory.ofBytesFrom 0 bytes

end Sys2Proof.Machine
end

