-- ==== Sys2Proof/Machine/State.lean ====
section
/-! DEFINITION. The complete state of the core (10_state.md, the table at its top), the reasons a step can stop, and the
state at construction (70_reset_and_hazards.md R260 to R262). -/

namespace Sys2Proof.Machine

/-- The error taxonomy of 60_exceptions.md R230 with the information each records (R232). An instruction that raises one
answers a NEXT state whose status is `faulted`; `step` answers `Outcome.fault` with it from that state on, because no step
is defined there (R234). -/
inductive Fault where
  /-- An access reaches no backing cell. Raised by `memRead` and `memWrite`. Safe: the spec names this fault. -/
  | outOfBounds (addr : Word)
  /-- A write to 0x0000-0x7FFF. Raised by `memWrite`. Safe: the spec names this fault. -/
  | readOnlyWrite (addr : Word)
  /-- A write to 0xFEA0-0xFEFF. Raised by `memWrite`. Safe: the spec names this fault. -/
  | prohibitedRegion (addr : Word)
  /-- One of the eleven illegal opcodes, with its address. Raised by `raiseIllegal`. Safe: the spec names this fault. -/
  | illegalOpcode (pc : Word) (opcode : Byte)
  /-- `insertBits` past bit 7. No instruction calls it (R235). Safe. -/
  | overflowBitWrite
  /-- `resolveRegister` given a code outside 0..5 and 7. No instruction reaches it (R235). Safe. -/
  | invalidRegisterIndex
  /-- `evaluateCondition` given a code outside 0..3. No instruction reaches it (R235). Safe. -/
  | invalidConditionCode
  deriving DecidableEq, Repr

/-- Why an answer is refused. -/
inductive Refusal where
  /-- An instruction without a meaning yet, by its mnemonic. Raised by no arm of this model. Safe. -/
  | notModelled (mnemonic : String)
  /-- The run was ended by UNSUPPORTED_POLICY = Refuse (43_illegal_unsupported.md R222). Raised by `step` from a state
  whose status is `refused`. Safe: the spec gives the opcode no meaning under that policy. -/
  | unsupportedOpcode (pc : Word) (opcode : Byte)
  /-- `extractBits` outside its domain (00_scope.md R11). No instruction reaches it. Safe. -/
  | bitFieldOutOfRange
  deriving DecidableEq, Repr

/-- The run status (10_state.md R32). -/
inductive Status where
  | running
  | faulted (f : Fault)
  | refused (pc : Word) (opcode : Byte)
  deriving DecidableEq, Repr

/-- The memory map: the backing stores (20_memory.md R51), length(ROM_IMAGE) and M_ERAM, which fix how much of `rom` and
`eram` exists (R56, R57), and the four active-bank indices (10_state.md R31). -/
structure MemoryMap where
  rom : Memory
  vram : Memory
  eram : Memory
  wram : Memory
  oam : Memory
  io : Memory
  hram : Memory
  ie : Memory
  romLength : Nat
  mEram : Nat
  romBank : Nat
  vramBank : Nat
  eramBank : Nat
  wramBank : Nat
  deriving DecidableEq, Repr

/-- The whole state (10_state.md, the table at its top), with the policies of 00_scope.md R6 as constant fields (log
entry 2). -/
structure State where
  a : Byte
  b : Byte
  c : Byte
  d : Byte
  e : Byte
  f : Byte
  h : Byte
  l : Byte
  sp : Word
  pc : Word
  mcycles : Nat
  mem : MemoryMap
  status : Status
  unsupportedSeen : Option (Word × Byte)
  config : Config
  deriving DecidableEq, Repr

/-- The memory map at construction (20_memory.md R56, R64; 10_state.md R31). -/
def MemoryMap.construct (k : Construction) : MemoryMap :=
  { rom := Memory.ofBytes k.romImage
    vram := []
    eram := Memory.ofBytes (k.eramInit.take (k.mEram * 8192))
    wram := []
    oam := []
    io := []
    hram := []
    ie := Memory.ofBytes [k.ieInit]
    romLength := k.romImage.length
    mEram := k.mEram
    romBank := 1
    vramBank := 0
    eramBank := 1
    wramBank := 1 }

/-- The state at construction (70_reset_and_hazards.md R260, R262; 10_state.md R37). -/
def State.construct (k : Construction) : State :=
  { a := k.preset.a
    b := k.preset.b
    c := k.preset.c
    d := k.preset.d
    e := k.preset.e
    f := k.preset.f
    h := k.preset.h
    l := k.preset.l
    sp := 0xFFFE
    pc := 0x0100
    mcycles := 0
    mem := MemoryMap.construct k
    status := .running
    unsupportedSeen := none
    config := k.config }

/-- The machine right after reset: construction from the inputs of `Construction.unloaded`. -/
def State.reset : State := State.construct Construction.unloaded

end Sys2Proof.Machine
end

