-- ==== Sys2Proof/Machine/MemoryMap.lean ====
section
/-! DEFINITION. The address decoder and the two accesses of the memory map, without the clock (20_memory.md R50 to R64,
R75). -/

namespace Sys2Proof.Machine

/-- The backing stores (20_memory.md R51). -/
inductive Store where
  | rom
  | vram
  | eram
  | wram
  | oam
  | io
  | hram
  | ie
  deriving DecidableEq, Repr

/-- The contents of a store. -/
def MemoryMap.store (m : MemoryMap) : Store → Memory
  | .rom => m.rom
  | .vram => m.vram
  | .eram => m.eram
  | .wram => m.wram
  | .oam => m.oam
  | .io => m.io
  | .hram => m.hram
  | .ie => m.ie

/-- The map with the contents of one store replaced. -/
def MemoryMap.setStore (m : MemoryMap) (st : Store) (cells : Memory) : MemoryMap :=
  match st with
  | .rom => { m with rom := cells }
  | .vram => { m with vram := cells }
  | .eram => { m with eram := cells }
  | .wram => { m with wram := cells }
  | .oam => { m with oam := cells }
  | .io => { m with io := cells }
  | .hram => { m with hram := cells }
  | .ie => { m with ie := cells }

/-- How many bytes of a store exist (20_memory.md R51; R56 for ROM; R57 for external RAM). -/
def MemoryMap.size (m : MemoryMap) : Store → Nat
  | .rom => m.romLength
  | .vram => 2 * 8192
  | .eram => m.mEram * 8192
  | .wram => 8 * 4096
  | .oam => 256
  | .io => 128
  | .hram => 127
  | .ie => 1

/-- N_ROM, the number of ROM banks (00_scope.md R6). -/
def MemoryMap.nRom (m : MemoryMap) : Nat := (m.romLength + 16383) / 16384

/-- The rows of the decode table (20_memory.md R52), and the guard above 0xFFFF (R75). -/
inductive Region where
  | romBank0
  | romSwitchable
  | vram
  | eram
  | wramBank0
  | wramSwitchable
  | mirrorBank0
  | mirrorSwitchable
  | oam
  | prohibited
  | io
  | highRam
  | interruptEnable
  | outside
  deriving DecidableEq, Repr

/-- The row an address falls in (20_memory.md R52). -/
def regionOf (addr : Nat) : Region :=
  if addr ≤ 0x3FFF then .romBank0
  else if addr ≤ 0x7FFF then .romSwitchable
  else if addr ≤ 0x9FFF then .vram
  else if addr ≤ 0xBFFF then .eram
  else if addr ≤ 0xCFFF then .wramBank0
  else if addr ≤ 0xDFFF then .wramSwitchable
  else if addr ≤ 0xEFFF then .mirrorBank0
  else if addr ≤ 0xFDFF then .mirrorSwitchable
  else if addr ≤ 0xFE9F then .oam
  else if addr ≤ 0xFEFF then .prohibited
  else if addr ≤ 0xFF7F then .io
  else if addr ≤ 0xFFFE then .highRam
  else if addr ≤ 0xFFFF then .interruptEnable
  else .outside

/-- The store and the index in it that an address reaches, whether or not that cell exists (20_memory.md R52, R53). -/
def MemoryMap.cellOf (m : MemoryMap) (addr : Nat) : Option (Store × Nat) :=
  match regionOf addr with
  | .romBank0 => some (.rom, addr)
  | .romSwitchable => some (.rom, m.romBank * 16384 + (addr - 0x4000))
  | .vram => some (.vram, m.vramBank * 8192 + (addr - 0x8000))
  | .eram => some (.eram, m.eramBank * 8192 + (addr - 0xA000))
  | .wramBank0 => some (.wram, addr - 0xC000)
  | .wramSwitchable => some (.wram, m.wramBank * 4096 + (addr - 0xD000))
  | .mirrorBank0 => some (.wram, addr - 0xE000)
  | .mirrorSwitchable => some (.wram, m.wramBank * 4096 + (addr - 0xF000))
  | .oam => some (.oam, addr - 0xFE00)
  | .prohibited => none
  | .io => some (.io, addr - 0xFF00)
  | .highRam => some (.hram, addr - 0xFF80)
  | .interruptEnable => some (.ie, 0)
  | .outside => none

/-- The byte an address reads, or the error it raises (20_memory.md R54, R56, R57, R59). A cell past the end of its store
does not exist: for ROM that is R56, for external RAM R57 (log entry 7 for the other stores). -/
def MemoryMap.read (m : MemoryMap) (addr : Word) : Except Fault Byte :=
  if regionOf addr.toNat = .prohibited then .ok 0x00
  else
    match m.cellOf addr.toNat with
    | none => .error (.outOfBounds addr)
    | some (st, i) => if i < m.size st then .ok ((m.store st).get i) else .error (.outOfBounds addr)

/-- The map with a byte stored, or the error the write raises (20_memory.md R55). -/
def MemoryMap.write (m : MemoryMap) (addr : Word) (v : Byte) : Except Fault MemoryMap :=
  if addr.toNat ≤ 0x7FFF then .error (.readOnlyWrite addr)
  else if regionOf addr.toNat = .prohibited then .error (.prohibitedRegion addr)
  else
    match m.cellOf addr.toNat with
    | none => .error (.outOfBounds addr)
    | some (st, i) =>
      if i < m.size st then .ok (m.setStore st ((m.store st).set i v)) else .error (.outOfBounds addr)

/-- Loading one byte from outside the machine: the cell an address reaches, in ROM or not, is made to exist and holds the
byte. It is no access of the core: `State.withFetchWord` alone uses it (log entry 5).

DESIGN CHOICE (log entry 5): the spec leaves ROM_IMAGE, M_ERAM and ERAM_INIT open, and an image has no gap (20_memory.md R56, R57).
So where the ROM byte does not exist, the image is lengthened to end at it and every byte between reads 0x00; where the
external-RAM bank does not exist, it and every bank below it come to exist and their other bytes read 0x00. -/
def MemoryMap.load (m : MemoryMap) (addr : Word) (v : Byte) : MemoryMap :=
  match m.cellOf addr.toNat with
  | none => m
  | some (.rom, i) => { m with rom := m.rom.set i v, romLength := max m.romLength (i + 1) }
  | some (.eram, i) => { m with eram := m.eram.set i v, mEram := max m.mEram (i / 8192 + 1) }
  | some (st, i) => m.setStore st ((m.store st).set i v)

/-- Every store is in canonical form and lists no cell that does not exist. -/
def MemoryMap.wf (m : MemoryMap) : Bool :=
  [Store.rom, .vram, .eram, .wram, .oam, .io, .hram, .ie].all fun st =>
    (m.store st).wf && (m.store st).within (m.size st)

/-- The four bank indices hold their construction values (10_state.md R31). -/
def MemoryMap.banksFixed (m : MemoryMap) : Bool :=
  m.romBank == 1 && m.vramBank == 0 && m.eramBank == 1 && m.wramBank == 1

/-- M_ERAM from byte 0x0149 of the cartridge header (70_reset_and_hazards.md R264). -/
def eramBanksOfHeader (b : Byte) : Nat :=
  if b = 0 then 0
  else if b = 1 then 1
  else if b = 3 then 4
  else if b = 4 then 16
  else if b = 5 then 8
  else 0

/-- The construction inputs with M_ERAM as the header parser supplies it from the image (70_reset_and_hazards.md R264).
An image without that byte has no header; it gives 0 (log entry 6). -/
def withHeaderBanks (k : Construction) : Construction :=
  { k with mEram := eramBanksOfHeader (k.romImage.getD 0x0149 0x00) }

end Sys2Proof.Machine
end

