-- ==== Sys2Proof/Syntax.lean ====
section
/-! DEFINITION. The instructions: one constructor per mnemonic of spec/opcode_table.json (30_encoding.md R101). The table's
81 UNSUPPORTED rows and its 11 ILLEGAL rows are one constructor each, which carries the opcode byte (log entry 9).
In a constructor's name a letter is a register and AtHL is the memory operand [HL]. -/

namespace Sys2Proof

/-- The registers that have a 3-bit code (10_state.md R21). -/
inductive Reg8 where
  | b
  | c
  | d
  | e
  | h
  | l
  | a
  deriving DecidableEq, Repr

/-- What a 3-bit operand field names (30_encoding.md R92). -/
inductive Slot where
  | reg (r : Reg8)
  | atHL
  deriving DecidableEq, Repr

/-- Condition codes (10_state.md R26). -/
inductive Cond where
  | nz
  | z
  | nc
  | c
  deriving DecidableEq, Repr

/-- The eight ALU operations (30_encoding.md R94). -/
inductive AluOp where
  | add
  | adc
  | sub
  | sbc
  | and
  | xor
  | or
  | cp
  deriving DecidableEq, Repr

/-- The instructions. -/
inductive Instr where
  /-- NOP (R120). -/
  | nop
  /-- UNSUPPORTED (R221). -/
  | unsupported (op : Byte)
  /-- INC B (R188). -/
  | incB
  /-- DEC B (R190). -/
  | decB
  /-- INC C (R188). -/
  | incC
  /-- DEC C (R190). -/
  | decC
  /-- INC D (R188). -/
  | incD
  /-- DEC D (R190). -/
  | decD
  /-- JR e8 (R123). -/
  | jr (disp : Byte)
  /-- INC E (R188). -/
  | incE
  /-- DEC E (R190). -/
  | decE
  /-- JR NZ,e8 (R124). -/
  | jrNZ (disp : Byte)
  /-- INC H (R188). -/
  | incH
  /-- DEC H (R190). -/
  | decH
  /-- JR Z,e8 (R124). -/
  | jrZ (disp : Byte)
  /-- INC L (R188). -/
  | incL
  /-- DEC L (R190). -/
  | decL
  /-- JR NC,e8 (R124). -/
  | jrNC (disp : Byte)
  /-- INC [HL] (R189). -/
  | incAtHL
  /-- DEC [HL] (R191). -/
  | decAtHL
  /-- JR C,e8 (R124). -/
  | jrC (disp : Byte)
  /-- INC A (R188). -/
  | incA
  /-- DEC A (R190). -/
  | decA
  /-- LD B,B (R140). -/
  | ldBB
  /-- LD B,C (R140). -/
  | ldBC
  /-- LD B,D (R140). -/
  | ldBD
  /-- LD B,E (R140). -/
  | ldBE
  /-- LD B,H (R140). -/
  | ldBH
  /-- LD B,L (R140). -/
  | ldBL
  /-- LD B,[HL] (R141). -/
  | ldBAtHL
  /-- LD B,A (R140). -/
  | ldBA
  /-- LD C,B (R140). -/
  | ldCB
  /-- LD C,C (R140). -/
  | ldCC
  /-- LD C,D (R140). -/
  | ldCD
  /-- LD C,E (R140). -/
  | ldCE
  /-- LD C,H (R140). -/
  | ldCH
  /-- LD C,L (R140). -/
  | ldCL
  /-- LD C,[HL] (R141). -/
  | ldCAtHL
  /-- LD C,A (R140). -/
  | ldCA
  /-- LD D,B (R140). -/
  | ldDB
  /-- LD D,C (R140). -/
  | ldDC
  /-- LD D,D (R140). -/
  | ldDD
  /-- LD D,E (R140). -/
  | ldDE
  /-- LD D,H (R140). -/
  | ldDH
  /-- LD D,L (R140). -/
  | ldDL
  /-- LD D,[HL] (R141). -/
  | ldDAtHL
  /-- LD D,A (R140). -/
  | ldDA
  /-- LD E,B (R140). -/
  | ldEB
  /-- LD E,C (R140). -/
  | ldEC
  /-- LD E,D (R140). -/
  | ldED
  /-- LD E,E (R140). -/
  | ldEE
  /-- LD E,H (R140). -/
  | ldEH
  /-- LD E,L (R140). -/
  | ldEL
  /-- LD E,[HL] (R141). -/
  | ldEAtHL
  /-- LD E,A (R140). -/
  | ldEA
  /-- LD H,B (R140). -/
  | ldHB
  /-- LD H,C (R140). -/
  | ldHC
  /-- LD H,D (R140). -/
  | ldHD
  /-- LD H,E (R140). -/
  | ldHE
  /-- LD H,H (R140). -/
  | ldHH
  /-- LD H,L (R140). -/
  | ldHL
  /-- LD H,[HL] (R141). -/
  | ldHAtHL
  /-- LD H,A (R140). -/
  | ldHA
  /-- LD L,B (R140). -/
  | ldLB
  /-- LD L,C (R140). -/
  | ldLC
  /-- LD L,D (R140). -/
  | ldLD
  /-- LD L,E (R140). -/
  | ldLE
  /-- LD L,H (R140). -/
  | ldLH
  /-- LD L,L (R140). -/
  | ldLL
  /-- LD L,[HL] (R141). -/
  | ldLAtHL
  /-- LD L,A (R140). -/
  | ldLA
  /-- LD [HL],B (R142). -/
  | ldAtHLB
  /-- LD [HL],C (R142). -/
  | ldAtHLC
  /-- LD [HL],D (R142). -/
  | ldAtHLD
  /-- LD [HL],E (R142). -/
  | ldAtHLE
  /-- LD [HL],H (R142). -/
  | ldAtHLH
  /-- LD [HL],L (R142). -/
  | ldAtHLL
  /-- LD [HL],[HL] (R143). -/
  | ldAtHLAtHL
  /-- LD [HL],A (R142). -/
  | ldAtHLA
  /-- LD A,B (R140). -/
  | ldAB
  /-- LD A,C (R140). -/
  | ldAC
  /-- LD A,D (R140). -/
  | ldAD
  /-- LD A,E (R140). -/
  | ldAE
  /-- LD A,H (R140). -/
  | ldAH
  /-- LD A,L (R140). -/
  | ldAL
  /-- LD A,[HL] (R141). -/
  | ldAAtHL
  /-- LD A,A (R140). -/
  | ldAA
  /-- ADD A,B (R163). -/
  | addAB
  /-- ADD A,C (R163). -/
  | addAC
  /-- ADD A,D (R163). -/
  | addAD
  /-- ADD A,E (R163). -/
  | addAE
  /-- ADD A,H (R163). -/
  | addAH
  /-- ADD A,L (R163). -/
  | addAL
  /-- ADD A,[HL] (R164). -/
  | addAAtHL
  /-- ADD A,A (R163). -/
  | addAA
  /-- ADC A,B (R166). -/
  | adcAB
  /-- ADC A,C (R166). -/
  | adcAC
  /-- ADC A,D (R166). -/
  | adcAD
  /-- ADC A,E (R166). -/
  | adcAE
  /-- ADC A,H (R166). -/
  | adcAH
  /-- ADC A,L (R166). -/
  | adcAL
  /-- ADC A,[HL] (R167). -/
  | adcAAtHL
  /-- ADC A,A (R166). -/
  | adcAA
  /-- SUB A,B (R169). -/
  | subAB
  /-- SUB A,C (R169). -/
  | subAC
  /-- SUB A,D (R169). -/
  | subAD
  /-- SUB A,E (R169). -/
  | subAE
  /-- SUB A,H (R169). -/
  | subAH
  /-- SUB A,L (R169). -/
  | subAL
  /-- SUB A,[HL] (R170). -/
  | subAAtHL
  /-- SUB A,A (R169). -/
  | subAA
  /-- SBC A,B (R172). -/
  | sbcAB
  /-- SBC A,C (R172). -/
  | sbcAC
  /-- SBC A,D (R172). -/
  | sbcAD
  /-- SBC A,E (R172). -/
  | sbcAE
  /-- SBC A,H (R172). -/
  | sbcAH
  /-- SBC A,L (R172). -/
  | sbcAL
  /-- SBC A,[HL] (R173). -/
  | sbcAAtHL
  /-- SBC A,A (R172). -/
  | sbcAA
  /-- AND A,B (R175). -/
  | andAB
  /-- AND A,C (R175). -/
  | andAC
  /-- AND A,D (R175). -/
  | andAD
  /-- AND A,E (R175). -/
  | andAE
  /-- AND A,H (R175). -/
  | andAH
  /-- AND A,L (R175). -/
  | andAL
  /-- AND A,[HL] (R176). -/
  | andAAtHL
  /-- AND A,A (R175). -/
  | andAA
  /-- XOR A,B (R178). -/
  | xorAB
  /-- XOR A,C (R178). -/
  | xorAC
  /-- XOR A,D (R178). -/
  | xorAD
  /-- XOR A,E (R178). -/
  | xorAE
  /-- XOR A,H (R178). -/
  | xorAH
  /-- XOR A,L (R178). -/
  | xorAL
  /-- XOR A,[HL] (R179). -/
  | xorAAtHL
  /-- XOR A,A (R178). -/
  | xorAA
  /-- OR A,B (R181). -/
  | orAB
  /-- OR A,C (R181). -/
  | orAC
  /-- OR A,D (R181). -/
  | orAD
  /-- OR A,E (R181). -/
  | orAE
  /-- OR A,H (R181). -/
  | orAH
  /-- OR A,L (R181). -/
  | orAL
  /-- OR A,[HL] (R182). -/
  | orAAtHL
  /-- OR A,A (R181). -/
  | orAA
  /-- CP A,B (R184). -/
  | cpAB
  /-- CP A,C (R184). -/
  | cpAC
  /-- CP A,D (R184). -/
  | cpAD
  /-- CP A,E (R184). -/
  | cpAE
  /-- CP A,H (R184). -/
  | cpAH
  /-- CP A,L (R184). -/
  | cpAL
  /-- CP A,[HL] (R185). -/
  | cpAAtHL
  /-- CP A,A (R184). -/
  | cpAA
  /-- JP NZ,a16 (R122). -/
  | jpNZ (target : Word)
  /-- JP a16 (R121). -/
  | jp (target : Word)
  /-- ADD A,n8 (R165). -/
  | addAImm (n : Byte)
  /-- JP Z,a16 (R122). -/
  | jpZ (target : Word)
  /-- ADC A,n8 (R168). -/
  | adcAImm (n : Byte)
  /-- JP NC,a16 (R122). -/
  | jpNC (target : Word)
  /-- ILLEGAL (R220). -/
  | illegal (op : Byte)
  /-- SUB A,n8 (R171). -/
  | subAImm (n : Byte)
  /-- JP C,a16 (R122). -/
  | jpC (target : Word)
  /-- SBC A,n8 (R174). -/
  | sbcAImm (n : Byte)
  /-- AND A,n8 (R177). -/
  | andAImm (n : Byte)
  /-- JP HL (R125). -/
  | jpHL
  /-- XOR A,n8 (R180). -/
  | xorAImm (n : Byte)
  /-- OR A,n8 (R183). -/
  | orAImm (n : Byte)
  /-- CP A,n8 (R186). -/
  | cpAImm (n : Byte)
  deriving DecidableEq, Repr

/-- The shape of an instruction: its group of 30_encoding.md R101 with the operands its fields name. -/
inductive Form where
  | nop
  | jp (target : Word)
  | jpCond (cc : Cond) (target : Word)
  | jr (disp : Byte)
  | jrCond (cc : Cond) (disp : Byte)
  | jpHL
  | ld (dst src : Slot)
  | alu (o : AluOp) (src : Slot)
  | aluImm (o : AluOp) (n : Byte)
  | inc (t : Slot)
  | dec (t : Slot)
  | illegal (op : Byte)
  | unsupported (op : Byte)
  deriving DecidableEq, Repr

end Sys2Proof
end

