-- ==== Sys2Proof/Machine/Ops.lean ====
section
/-! DEFINITION. The named operations every meaning is built from: bit fields (00_scope.md R11, R12), registers and pairs
(10_state.md R20 to R22), the clock (R29), raising an error (00_scope.md R14), the two memory accesses (20_memory.md R54,
R55) and the fetch of one byte (30_encoding.md R95). -/

namespace Sys2Proof.Machine

/-- What a statement of an instruction's rule leaves: a value and the state so far, or the state a raise left behind
(00_scope.md R14: later statements do not run, earlier effects stay). -/
inductive Res (α : Type) where
  | ok (v : α) (s : State)
  | raised (s : State)
  deriving DecidableEq, Repr

/-- The next statement of a rule. -/
def Res.bind {α β : Type} (r : Res α) (k : α → State → Res β) : Res β :=
  match r with
  | .ok v s => k v s
  | .raised s => .raised s

/-- The end of an instruction: completed or ended by a raise, the core is in the state it left (60_exceptions.md R233). -/
def Res.outcome (r : Res Unit) : Host.Outcome State Fault Refusal :=
  match r with
  | .ok _ s => .next s
  | .raised s => .next s

/-- `extract_bits` (00_scope.md R11); refused outside its domain (92_eei_decisions.md D19; log entry 8). -/
def extractBits (byte : Byte) (index length : Nat) : Except Refusal Byte :=
  if index + length ≤ 8 then .ok (BitVec.ofNat 8 (byte.toNat / 2 ^ index % 2 ^ length))
  else .error .bitFieldOutOfRange

/-- `insert_bits` (00_scope.md R12). -/
def insertBits (byte : Byte) (index length : Nat) (value : Byte) : Except Fault Byte :=
  if index + length ≤ 8 then
    .ok (BitVec.ofNat 8
      (byte.toNat / 2 ^ (index + length) * 2 ^ (index + length)
        + value.toNat % 2 ^ length * 2 ^ index
        + byte.toNat % 2 ^ index))
  else .error .overflowBitWrite

/-- `x[k]` by name (10_state.md R20). -/
def State.reg (s : State) : Reg8 → Byte
  | .b => s.b
  | .c => s.c
  | .d => s.d
  | .e => s.e
  | .h => s.h
  | .l => s.l
  | .a => s.a

/-- `x[k] <- v` by name (10_state.md R20). -/
def State.setReg (s : State) (r : Reg8) (v : Byte) : State :=
  match r with
  | .b => { s with b := v }
  | .c => { s with c := v }
  | .d => { s with d := v }
  | .e => { s with e := v }
  | .h => { s with h := v }
  | .l => { s with l := v }
  | .a => { s with a := v }

/-- `resolve_register` (10_state.md R21). -/
def resolveRegister (code : Nat) : Except Fault Reg8 :=
  match code with
  | 0 => .ok .b
  | 1 => .ok .c
  | 2 => .ok .d
  | 3 => .ok .e
  | 4 => .ok .h
  | 5 => .ok .l
  | 7 => .ok .a
  | _ => .error .invalidRegisterIndex

/-- The register pairs (10_state.md R22). -/
inductive Pair where
  | bc
  | de
  | hl
  | af
  deriving DecidableEq, Repr

/-- `HL` is `compose16(L, H)` (10_state.md R22). -/
def State.hl (s : State) : Word := compose16 s.l s.h

/-- `read_pair` (10_state.md R22). -/
def State.readPair (s : State) : Pair → Word
  | .bc => compose16 s.c s.b
  | .de => compose16 s.e s.d
  | .hl => s.hl
  | .af => compose16 s.f s.a

/-- `write_pair` (10_state.md R22). F keeps a zero low nibble after every write (R23), so a write of AF drops those bits. -/
def State.writePair (s : State) (p : Pair) (v : Word) : State :=
  match p with
  | .bc => { s with c := (decompose16 v).1, b := (decompose16 v).2 }
  | .de => { s with e := (decompose16 v).1, d := (decompose16 v).2 }
  | .hl => { s with l := (decompose16 v).1, h := (decompose16 v).2 }
  | .af => { s with f := (decompose16 v).1 &&& 0xF0, a := (decompose16 v).2 }

/-- `Tick()` (10_state.md R29). -/
def State.tick (s : State) : State := { s with mcycles := s.mcycles + 1 }

/-- The sub-cycle counter, a function of the machine-cycle counter (10_state.md R29; 90_conflicts.md C11). -/
def State.tcycles (s : State) : Nat := 4 * s.mcycles

/-- `raise E(info)`, the core's one exception mechanism: the status becomes `Faulted(E, info)` and nothing else changes
(00_scope.md R14; 60_exceptions.md R232, R237: nothing is saved, masked or vectored). There is no return from it (R238). -/
def State.raise (s : State) (f : Fault) : State := { s with status := .faulted f }

/-- `MemRead(addr, 1)` (20_memory.md R54). -/
def memRead (addr : Word) (s : State) : Res Byte :=
  match s.mem.read addr with
  | .ok v => .ok v s.tick
  | .error f => .raised (s.tick.raise f)

/-- `MemWrite(addr, 1, v)` (20_memory.md R55). -/
def memWrite (addr : Word) (v : Byte) (s : State) : Res Unit :=
  match s.mem.write addr v with
  | .ok m => .ok () { s.tick with mem := m }
  | .error f => .raised (s.tick.raise f)

/-- `FetchByte()`: PC advances, modulo 2^16, only when the read succeeded (30_encoding.md R95; 10_state.md R28). -/
def fetchByte (s : State) : Res Byte :=
  (memRead s.pc s).bind fun v s1 => .ok v { s1 with pc := s1.pc + 1 }

/-- Raising IllegalOpcode with the opcode's address, which is PC - 1 after the opcode fetch (43_illegal_unsupported.md
R220). -/
def raiseIllegal (op : Byte) (s : State) : Res Unit := .raised (s.raise (.illegalOpcode (s.pc - 1) op))

/-- An unsupported opcode under UNSUPPORTED_POLICY (43_illegal_unsupported.md R221, R222; 10_state.md R33). -/
def unsupportedOpcode (op : Byte) (s : State) : Res Unit :=
  match s.config.unsupportedPolicy with
  | .marker =>
    match s.unsupportedSeen with
    | none => .ok () { s with unsupportedSeen := some (s.pc - 1, op) }
    | some _ => .ok () s
  | .refuse => .raised { s with status := .refused (s.pc - 1) op }

end Sys2Proof.Machine
end

