-- ==== Sys2Proof/Machine/Flags.lean ====
section
/-! DEFINITION. The flag register, conditions (10_state.md R23 to R26) and the pure 8-bit arithmetic with its flags
(42_alu.md R160, R161, R187 and the per-operation lines of R163 to R186). -/

namespace Sys2Proof.Machine

/-- The flags of F (10_state.md R23). -/
inductive Flag where
  | z
  | n
  | h
  | c
  deriving DecidableEq, Repr

/-- A flag's bit of F (10_state.md R23). -/
def Flag.bit : Flag → Nat
  | .z => 7
  | .n => 6
  | .h => 5
  | .c => 4

/-- `read_flag` (10_state.md R24). -/
def State.flag (s : State) (fl : Flag) : Bool := s.f.getLsbD fl.bit

/-- What `write_flag` is given: a value, or toggle (10_state.md R24). -/
inductive FlagWrite where
  | value (v : Bool)
  | toggle
  deriving DecidableEq, Repr

/-- `write_flag` (10_state.md R24). -/
def State.writeFlag (s : State) (fl : Flag) (w : FlagWrite) : State :=
  match w with
  | .value true => { s with f := s.f ||| BitVec.twoPow 8 fl.bit }
  | .value false => { s with f := s.f &&& ~~~(BitVec.twoPow 8 fl.bit) }
  | .toggle => { s with f := s.f ^^^ BitVec.twoPow 8 fl.bit }

/-- `(z<<7) | (n<<6) | (h<<5) | (c<<4)` (10_state.md R25). -/
def packFlags (z n h c : Bool) : Byte :=
  BitVec.ofBool z ++ BitVec.ofBool n ++ BitVec.ofBool h ++ BitVec.ofBool c ++ 0#4

/-- `set_all_flags`, written SetFlags (10_state.md R25). -/
def State.setFlags (s : State) (z n h c : Bool) : State := { s with f := packFlags z n h c }

/-- `cond(cc)` (10_state.md R26). -/
def State.cond (s : State) : Cond → Bool
  | .nz => !s.flag .z
  | .z => s.flag .z
  | .nc => !s.flag .c
  | .c => s.flag .c

/-- `evaluate_condition` on a code (10_state.md R26). -/
def evaluateCondition (code : Nat) (s : State) : Except Fault Bool :=
  match code with
  | 0 => .ok (s.cond .nz)
  | 1 => .ok (s.cond .z)
  | 2 => .ok (s.cond .nc)
  | 3 => .ok (s.cond .c)
  | _ => .error .invalidConditionCode

/-- A result with its half-carry and carry. -/
structure Arith where
  r : Byte
  h : Bool
  c : Bool
  deriving DecidableEq, Repr

/-- `add8(a, v, cin)` under CARRY_IN_MODE (42_alu.md R160). -/
def add8 (mode : CarryInMode) (a v : Byte) (cin : Bool) : Arith :=
  match mode with
  | .separate =>
    { r := BitVec.ofNat 8 (a.toNat + v.toNat + cin.toNat)
      h := decide (a.toNat % 16 + v.toNat % 16 + cin.toNat > 0xF)
      c := decide (a.toNat + v.toNat + cin.toNat > 0xFF) }
  | .incrementedOperand =>
    { r := BitVec.ofNat 8 (a.toNat + (v.toNat + cin.toNat))
      h := decide (a.toNat % 16 + (v.toNat + cin.toNat) % 16 > 0xF)
      c := decide (a.toNat + (v.toNat + cin.toNat) > 0xFF) }
  | .incrementedOperandWrapped =>
    { r := BitVec.ofNat 8 (a.toNat + (v.toNat + cin.toNat) % 256)
      h := decide (a.toNat % 16 + (v.toNat + cin.toNat) % 256 % 16 > 0xF)
      c := decide (a.toNat + (v.toNat + cin.toNat) % 256 > 0xFF) }

/-- `sub8(a, v, cin)` under CARRY_IN_MODE (42_alu.md R161). -/
def sub8 (mode : CarryInMode) (a v : Byte) (cin : Bool) : Arith :=
  match mode with
  | .separate =>
    { r := BitVec.ofInt 8 ((a.toNat : Int) - v.toNat - cin.toNat)
      h := decide (a.toNat % 16 < v.toNat % 16 + cin.toNat)
      c := decide (a.toNat < v.toNat + cin.toNat) }
  | .incrementedOperand =>
    { r := BitVec.ofInt 8 ((a.toNat : Int) - ((v.toNat + cin.toNat : Nat) : Int))
      h := decide (a.toNat % 16 < (v.toNat + cin.toNat) % 16)
      c := decide (a.toNat < v.toNat + cin.toNat) }
  | .incrementedOperandWrapped =>
    { r := BitVec.ofInt 8 ((a.toNat : Int) - (((v.toNat + cin.toNat) % 256 : Nat) : Int))
      h := decide (a.toNat % 16 < (v.toNat + cin.toNat) % 256 % 16)
      c := decide (a.toNat < (v.toNat + cin.toNat) % 256) }

/-- A result with its half-carry, for INC and DEC. -/
structure Count where
  r : Byte
  h : Bool
  deriving DecidableEq, Repr

/-- `inc8(v)` (42_alu.md R187). -/
def inc8 (v : Byte) : Count :=
  { r := BitVec.ofNat 8 (v.toNat + 1), h := decide (v.toNat % 16 + 1 > 0xF) }

/-- `dec8(v)` (42_alu.md R187). -/
def dec8 (v : Byte) : Count :=
  { r := BitVec.ofInt 8 ((v.toNat : Int) - 1), h := decide (v.toNat % 16 < 1) }

/-- What an ALU operation computes: the result and the four flags of 42_alu.md R162. -/
structure AluOut where
  r : Byte
  z : Bool
  n : Bool
  h : Bool
  c : Bool
  deriving DecidableEq, Repr

/-- The flags of the adding operations (42_alu.md R163, R166). -/
def Arith.added (x : Arith) : AluOut := { r := x.r, z := x.r == 0, n := false, h := x.h, c := x.c }

/-- The flags of the subtracting operations (42_alu.md R169, R172, R184). -/
def Arith.subtracted (x : Arith) : AluOut := { r := x.r, z := x.r == 0, n := true, h := x.h, c := x.c }

/-- The flags of the logic operations, with their fixed half-carry (42_alu.md R175, R178, R181). -/
def logicOut (r : Byte) (h : Bool) : AluOut := { r := r, z := r == 0, n := false, h := h, c := false }

/-- The per-operation line of 42_alu.md R162: R163 ADD, R166 ADC, R169 SUB, R172 SBC, R175 AND, R178 XOR, R181 OR,
R184 CP. -/
def aluCompute (mode : CarryInMode) (o : AluOp) (a v : Byte) (carry : Bool) : AluOut :=
  match o with
  | .add => (add8 mode a v false).added
  | .adc => (add8 mode a v carry).added
  | .sub => (sub8 mode a v false).subtracted
  | .sbc => (sub8 mode a v carry).subtracted
  | .and => logicOut (a &&& v) true
  | .xor => logicOut (a ^^^ v) false
  | .or => logicOut (a ||| v) false
  | .cp => (sub8 mode a v false).subtracted

end Sys2Proof.Machine
end

