-- ==== Sys2Proof/Machine/Operands.lean ====
section
/-! DEFINITION. The operand resolver (30_encoding.md R98 to R100). -/

namespace Sys2Proof.Machine

/-- The transient operand value (30_encoding.md R98; 00_scope.md section 5). -/
inductive Operand where
  | reg (r : Reg8)
  | ind (addr : Word)
  | imm (b : Byte)
  deriving DecidableEq, Repr

/-- The two places of an operand field in an opcode: the offsets 0 and 3 (30_encoding.md R98). -/
inductive FieldOffset where
  | low
  | high
  deriving DecidableEq, Repr

/-- The 3-bit code at an offset. `FieldOffset` keeps the call of `extract_bits` inside its domain (00_scope.md R11). -/
def FieldOffset.code (off : FieldOffset) (op : Byte) : BitVec 3 :=
  match off with
  | .low => op.extractLsb' 0 3
  | .high => op.extractLsb' 3 3

/-- `Resolve(imm, op, off)` (30_encoding.md R98). -/
def resolve (imm : Bool) (op : Byte) (off : FieldOffset) (s : State) : Res Operand :=
  if imm then (fetchByte s).bind fun b s1 => .ok (.imm b) s1
  else if off.code op = 6 then .ok (.ind s.hl) s
  else
    match resolveRegister (off.code op).toNat with
    | .ok r => .ok (.reg r) s
    | .error f => .raised (s.raise f)

/-- The operand a decoded slot stands for; the address of [HL] is taken at resolution (30_encoding.md R98). -/
def State.operand (s : State) : Slot → Operand
  | .reg r => .reg r
  | .atHL => .ind s.hl

/-- `ReadOperand(o)` (30_encoding.md R99). -/
def readOperand (o : Operand) (s : State) : Res Byte :=
  match o with
  | .reg r => .ok (s.reg r) s
  | .ind addr => memRead addr s
  | .imm b => .ok b s

/-- `WriteOperand(o, v)` (30_encoding.md R100). -/
def writeOperand (o : Operand) (v : Byte) (s : State) : Res Unit :=
  match o with
  | .reg r => .ok () (s.setReg r v)
  | .ind addr => memWrite addr v s
  | .imm _ => .ok () s

end Sys2Proof.Machine
end

