-- ==== Sys2Proof/Machine/Alu.lean ====
section
/-! DEFINITION. The eight ALU operations on a register, [HL] or n8 (42_alu.md R160 to R186). -/

namespace Sys2Proof.Machine

/-- The end of the common sequence: A is written by every operation but CP, then the flags (42_alu.md R162). -/
def State.aluWrite (s : State) (o : AluOp) (x : AluOut) : State :=
  (if o = .cp then s else { s with a := x.r }).setFlags x.z x.n x.h x.c

/-- The common sequence, after its operand is resolved (42_alu.md R162): the carry-in is the F.C held before. -/
def aluOperand (o : AluOp) (src : Operand) (s : State) : Res Unit :=
  (readOperand src s).bind fun v s1 =>
    .ok () (s1.aluWrite o (aluCompute s1.config.carryInMode o s1.a v (s1.flag .c)))

/-- ADD A,B (R163). -/
def execAddAB (s : State) : Host.Outcome State Fault Refusal := (aluOperand .add (.reg .b) s).outcome

/-- ADD A,C (R163). -/
def execAddAC (s : State) : Host.Outcome State Fault Refusal := (aluOperand .add (.reg .c) s).outcome

/-- ADD A,D (R163). -/
def execAddAD (s : State) : Host.Outcome State Fault Refusal := (aluOperand .add (.reg .d) s).outcome

/-- ADD A,E (R163). -/
def execAddAE (s : State) : Host.Outcome State Fault Refusal := (aluOperand .add (.reg .e) s).outcome

/-- ADD A,H (R163). -/
def execAddAH (s : State) : Host.Outcome State Fault Refusal := (aluOperand .add (.reg .h) s).outcome

/-- ADD A,L (R163). -/
def execAddAL (s : State) : Host.Outcome State Fault Refusal := (aluOperand .add (.reg .l) s).outcome

/-- ADD A,[HL] (R164). -/
def execAddAAtHL (s : State) : Host.Outcome State Fault Refusal := (aluOperand .add (.ind s.hl) s).outcome

/-- ADD A,A (R163). -/
def execAddAA (s : State) : Host.Outcome State Fault Refusal := (aluOperand .add (.reg .a) s).outcome

/-- ADC A,B (R166). -/
def execAdcAB (s : State) : Host.Outcome State Fault Refusal := (aluOperand .adc (.reg .b) s).outcome

/-- ADC A,C (R166). -/
def execAdcAC (s : State) : Host.Outcome State Fault Refusal := (aluOperand .adc (.reg .c) s).outcome

/-- ADC A,D (R166). -/
def execAdcAD (s : State) : Host.Outcome State Fault Refusal := (aluOperand .adc (.reg .d) s).outcome

/-- ADC A,E (R166). -/
def execAdcAE (s : State) : Host.Outcome State Fault Refusal := (aluOperand .adc (.reg .e) s).outcome

/-- ADC A,H (R166). -/
def execAdcAH (s : State) : Host.Outcome State Fault Refusal := (aluOperand .adc (.reg .h) s).outcome

/-- ADC A,L (R166). -/
def execAdcAL (s : State) : Host.Outcome State Fault Refusal := (aluOperand .adc (.reg .l) s).outcome

/-- ADC A,[HL] (R167). -/
def execAdcAAtHL (s : State) : Host.Outcome State Fault Refusal := (aluOperand .adc (.ind s.hl) s).outcome

/-- ADC A,A (R166). -/
def execAdcAA (s : State) : Host.Outcome State Fault Refusal := (aluOperand .adc (.reg .a) s).outcome

/-- SUB A,B (R169). -/
def execSubAB (s : State) : Host.Outcome State Fault Refusal := (aluOperand .sub (.reg .b) s).outcome

/-- SUB A,C (R169). -/
def execSubAC (s : State) : Host.Outcome State Fault Refusal := (aluOperand .sub (.reg .c) s).outcome

/-- SUB A,D (R169). -/
def execSubAD (s : State) : Host.Outcome State Fault Refusal := (aluOperand .sub (.reg .d) s).outcome

/-- SUB A,E (R169). -/
def execSubAE (s : State) : Host.Outcome State Fault Refusal := (aluOperand .sub (.reg .e) s).outcome

/-- SUB A,H (R169). -/
def execSubAH (s : State) : Host.Outcome State Fault Refusal := (aluOperand .sub (.reg .h) s).outcome

/-- SUB A,L (R169). -/
def execSubAL (s : State) : Host.Outcome State Fault Refusal := (aluOperand .sub (.reg .l) s).outcome

/-- SUB A,[HL] (R170). -/
def execSubAAtHL (s : State) : Host.Outcome State Fault Refusal := (aluOperand .sub (.ind s.hl) s).outcome

/-- SUB A,A (R169). -/
def execSubAA (s : State) : Host.Outcome State Fault Refusal := (aluOperand .sub (.reg .a) s).outcome

/-- SBC A,B (R172). -/
def execSbcAB (s : State) : Host.Outcome State Fault Refusal := (aluOperand .sbc (.reg .b) s).outcome

/-- SBC A,C (R172). -/
def execSbcAC (s : State) : Host.Outcome State Fault Refusal := (aluOperand .sbc (.reg .c) s).outcome

/-- SBC A,D (R172). -/
def execSbcAD (s : State) : Host.Outcome State Fault Refusal := (aluOperand .sbc (.reg .d) s).outcome

/-- SBC A,E (R172). -/
def execSbcAE (s : State) : Host.Outcome State Fault Refusal := (aluOperand .sbc (.reg .e) s).outcome

/-- SBC A,H (R172). -/
def execSbcAH (s : State) : Host.Outcome State Fault Refusal := (aluOperand .sbc (.reg .h) s).outcome

/-- SBC A,L (R172). -/
def execSbcAL (s : State) : Host.Outcome State Fault Refusal := (aluOperand .sbc (.reg .l) s).outcome

/-- SBC A,[HL] (R173). -/
def execSbcAAtHL (s : State) : Host.Outcome State Fault Refusal := (aluOperand .sbc (.ind s.hl) s).outcome

/-- SBC A,A (R172). -/
def execSbcAA (s : State) : Host.Outcome State Fault Refusal := (aluOperand .sbc (.reg .a) s).outcome

/-- AND A,B (R175). -/
def execAndAB (s : State) : Host.Outcome State Fault Refusal := (aluOperand .and (.reg .b) s).outcome

/-- AND A,C (R175). -/
def execAndAC (s : State) : Host.Outcome State Fault Refusal := (aluOperand .and (.reg .c) s).outcome

/-- AND A,D (R175). -/
def execAndAD (s : State) : Host.Outcome State Fault Refusal := (aluOperand .and (.reg .d) s).outcome

/-- AND A,E (R175). -/
def execAndAE (s : State) : Host.Outcome State Fault Refusal := (aluOperand .and (.reg .e) s).outcome

/-- AND A,H (R175). -/
def execAndAH (s : State) : Host.Outcome State Fault Refusal := (aluOperand .and (.reg .h) s).outcome

/-- AND A,L (R175). -/
def execAndAL (s : State) : Host.Outcome State Fault Refusal := (aluOperand .and (.reg .l) s).outcome

/-- AND A,[HL] (R176). -/
def execAndAAtHL (s : State) : Host.Outcome State Fault Refusal := (aluOperand .and (.ind s.hl) s).outcome

/-- AND A,A (R175). -/
def execAndAA (s : State) : Host.Outcome State Fault Refusal := (aluOperand .and (.reg .a) s).outcome

/-- XOR A,B (R178). -/
def execXorAB (s : State) : Host.Outcome State Fault Refusal := (aluOperand .xor (.reg .b) s).outcome

/-- XOR A,C (R178). -/
def execXorAC (s : State) : Host.Outcome State Fault Refusal := (aluOperand .xor (.reg .c) s).outcome

/-- XOR A,D (R178). -/
def execXorAD (s : State) : Host.Outcome State Fault Refusal := (aluOperand .xor (.reg .d) s).outcome

/-- XOR A,E (R178). -/
def execXorAE (s : State) : Host.Outcome State Fault Refusal := (aluOperand .xor (.reg .e) s).outcome

/-- XOR A,H (R178). -/
def execXorAH (s : State) : Host.Outcome State Fault Refusal := (aluOperand .xor (.reg .h) s).outcome

/-- XOR A,L (R178). -/
def execXorAL (s : State) : Host.Outcome State Fault Refusal := (aluOperand .xor (.reg .l) s).outcome

/-- XOR A,[HL] (R179). -/
def execXorAAtHL (s : State) : Host.Outcome State Fault Refusal := (aluOperand .xor (.ind s.hl) s).outcome

/-- XOR A,A (R178). -/
def execXorAA (s : State) : Host.Outcome State Fault Refusal := (aluOperand .xor (.reg .a) s).outcome

/-- OR A,B (R181). -/
def execOrAB (s : State) : Host.Outcome State Fault Refusal := (aluOperand .or (.reg .b) s).outcome

/-- OR A,C (R181). -/
def execOrAC (s : State) : Host.Outcome State Fault Refusal := (aluOperand .or (.reg .c) s).outcome

/-- OR A,D (R181). -/
def execOrAD (s : State) : Host.Outcome State Fault Refusal := (aluOperand .or (.reg .d) s).outcome

/-- OR A,E (R181). -/
def execOrAE (s : State) : Host.Outcome State Fault Refusal := (aluOperand .or (.reg .e) s).outcome

/-- OR A,H (R181). -/
def execOrAH (s : State) : Host.Outcome State Fault Refusal := (aluOperand .or (.reg .h) s).outcome

/-- OR A,L (R181). -/
def execOrAL (s : State) : Host.Outcome State Fault Refusal := (aluOperand .or (.reg .l) s).outcome

/-- OR A,[HL] (R182). -/
def execOrAAtHL (s : State) : Host.Outcome State Fault Refusal := (aluOperand .or (.ind s.hl) s).outcome

/-- OR A,A (R181). -/
def execOrAA (s : State) : Host.Outcome State Fault Refusal := (aluOperand .or (.reg .a) s).outcome

/-- CP A,B (R184). -/
def execCpAB (s : State) : Host.Outcome State Fault Refusal := (aluOperand .cp (.reg .b) s).outcome

/-- CP A,C (R184). -/
def execCpAC (s : State) : Host.Outcome State Fault Refusal := (aluOperand .cp (.reg .c) s).outcome

/-- CP A,D (R184). -/
def execCpAD (s : State) : Host.Outcome State Fault Refusal := (aluOperand .cp (.reg .d) s).outcome

/-- CP A,E (R184). -/
def execCpAE (s : State) : Host.Outcome State Fault Refusal := (aluOperand .cp (.reg .e) s).outcome

/-- CP A,H (R184). -/
def execCpAH (s : State) : Host.Outcome State Fault Refusal := (aluOperand .cp (.reg .h) s).outcome

/-- CP A,L (R184). -/
def execCpAL (s : State) : Host.Outcome State Fault Refusal := (aluOperand .cp (.reg .l) s).outcome

/-- CP A,[HL] (R185). -/
def execCpAAtHL (s : State) : Host.Outcome State Fault Refusal := (aluOperand .cp (.ind s.hl) s).outcome

/-- CP A,A (R184). -/
def execCpAA (s : State) : Host.Outcome State Fault Refusal := (aluOperand .cp (.reg .a) s).outcome

/-- ADD A,n8 (R165). -/
def execAddAImm (n : Byte) (s : State) : Host.Outcome State Fault Refusal := (aluOperand .add (.imm n) s).outcome

/-- ADC A,n8 (R168). -/
def execAdcAImm (n : Byte) (s : State) : Host.Outcome State Fault Refusal := (aluOperand .adc (.imm n) s).outcome

/-- SUB A,n8 (R171). -/
def execSubAImm (n : Byte) (s : State) : Host.Outcome State Fault Refusal := (aluOperand .sub (.imm n) s).outcome

/-- SBC A,n8 (R174). -/
def execSbcAImm (n : Byte) (s : State) : Host.Outcome State Fault Refusal := (aluOperand .sbc (.imm n) s).outcome

/-- AND A,n8 (R177). -/
def execAndAImm (n : Byte) (s : State) : Host.Outcome State Fault Refusal := (aluOperand .and (.imm n) s).outcome

/-- XOR A,n8 (R180). -/
def execXorAImm (n : Byte) (s : State) : Host.Outcome State Fault Refusal := (aluOperand .xor (.imm n) s).outcome

/-- OR A,n8 (R183). -/
def execOrAImm (n : Byte) (s : State) : Host.Outcome State Fault Refusal := (aluOperand .or (.imm n) s).outcome

/-- CP A,n8 (R186). -/
def execCpAImm (n : Byte) (s : State) : Host.Outcome State Fault Refusal := (aluOperand .cp (.imm n) s).outcome

end Sys2Proof.Machine
end

