-- ==== Sys2Proof/Machine/Control.lean ====
section
/-! DEFINITION. NOP and the jumps (40_control.md). A meaning starts after the bytes of its instruction have been fetched
(log entry 10), so PC is the address after the instruction. -/

namespace Sys2Proof.Machine

/-- No statement (40_control.md R120). -/
def nothing (s : State) : Res Unit := .ok () s

/-- `Tick(); PC <- target`: the taken-branch cycle and the jump (40_control.md R121; 10_state.md R30). -/
def takeBranch (target : Word) (s : State) : Res Unit := .ok () { s.tick with pc := target }

/-- JP a16 (40_control.md R121). -/
def jumpAbsolute (target : Word) (s : State) : Res Unit := takeBranch target s

/-- JP cc,a16 (40_control.md R122). -/
def jumpAbsoluteIf (cc : Cond) (target : Word) (s : State) : Res Unit :=
  if s.cond cc then takeBranch target s else .ok () s

/-- The target of JR: PC after the displacement byte, plus the signed displacement (40_control.md R123). -/
def State.relativeTarget (s : State) (disp : Byte) : Word := s.pc + sext16 disp

/-- JR e8 (40_control.md R123). -/
def jumpRelative (disp : Byte) (s : State) : Res Unit := takeBranch (s.relativeTarget disp) s

/-- JR cc,e8 (40_control.md R124). -/
def jumpRelativeIf (cc : Cond) (disp : Byte) (s : State) : Res Unit :=
  if s.cond cc then takeBranch (s.relativeTarget disp) s else .ok () s

/-- JP HL: nothing is read at [HL] and there is no taken-branch cycle (40_control.md R125). -/
def jumpHL (s : State) : Res Unit := .ok () { s with pc := s.hl }

/-- NOP (R120). -/
def execNop (s : State) : Host.Outcome State Fault Refusal := (nothing s).outcome

/-- JR e8 (R123). -/
def execJr (disp : Byte) (s : State) : Host.Outcome State Fault Refusal := (jumpRelative disp s).outcome

/-- JR NZ,e8 (R124). -/
def execJrNZ (disp : Byte) (s : State) : Host.Outcome State Fault Refusal := (jumpRelativeIf .nz disp s).outcome

/-- JR Z,e8 (R124). -/
def execJrZ (disp : Byte) (s : State) : Host.Outcome State Fault Refusal := (jumpRelativeIf .z disp s).outcome

/-- JR NC,e8 (R124). -/
def execJrNC (disp : Byte) (s : State) : Host.Outcome State Fault Refusal := (jumpRelativeIf .nc disp s).outcome

/-- JR C,e8 (R124). -/
def execJrC (disp : Byte) (s : State) : Host.Outcome State Fault Refusal := (jumpRelativeIf .c disp s).outcome

/-- JP NZ,a16 (R122). -/
def execJpNZ (target : Word) (s : State) : Host.Outcome State Fault Refusal := (jumpAbsoluteIf .nz target s).outcome

/-- JP a16 (R121). -/
def execJp (target : Word) (s : State) : Host.Outcome State Fault Refusal := (jumpAbsolute target s).outcome

/-- JP Z,a16 (R122). -/
def execJpZ (target : Word) (s : State) : Host.Outcome State Fault Refusal := (jumpAbsoluteIf .z target s).outcome

/-- JP NC,a16 (R122). -/
def execJpNC (target : Word) (s : State) : Host.Outcome State Fault Refusal := (jumpAbsoluteIf .nc target s).outcome

/-- JP C,a16 (R122). -/
def execJpC (target : Word) (s : State) : Host.Outcome State Fault Refusal := (jumpAbsoluteIf .c target s).outcome

/-- JP HL (R125). -/
def execJpHL (s : State) : Host.Outcome State Fault Refusal := (jumpHL s).outcome

end Sys2Proof.Machine
end

