-- ==== Sys2Proof/Machine/Gaps.lean ====
section
/-! DEFINITION. The opcode bytes outside the defined groups (43_illegal_unsupported.md). -/

namespace Sys2Proof.Machine

/-- UNSUPPORTED (R221). -/
def execUnsupported (op : Byte) (s : State) : Host.Outcome State Fault Refusal := (unsupportedOpcode op s).outcome

/-- ILLEGAL (R220). -/
def execIllegal (op : Byte) (s : State) : Host.Outcome State Fault Refusal := (raiseIllegal op s).outcome

end Sys2Proof.Machine
end

