-- ==== Sys2Proof/Machine/IncDec.lean ====
section
/-! DEFINITION. INC and DEC on a register or [HL] (42_alu.md R187 to R191). The flags are written after the operand, and C
passes its old value. -/

namespace Sys2Proof.Machine

/-- INC (42_alu.md R188, R189). -/
def incOperand (t : Slot) (s : State) : Res Unit :=
  (readOperand (s.operand t) s).bind fun v s1 =>
    (writeOperand (s.operand t) (inc8 v).r s1).bind fun _ s2 =>
      .ok () (s2.setFlags ((inc8 v).r == 0) false (inc8 v).h (s2.flag .c))

/-- DEC (42_alu.md R190, R191). -/
def decOperand (t : Slot) (s : State) : Res Unit :=
  (readOperand (s.operand t) s).bind fun v s1 =>
    (writeOperand (s.operand t) (dec8 v).r s1).bind fun _ s2 =>
      .ok () (s2.setFlags ((dec8 v).r == 0) true (dec8 v).h (s2.flag .c))

/-- INC B (R188). -/
def execIncB (s : State) : Host.Outcome State Fault Refusal := (incOperand (.reg .b) s).outcome

/-- DEC B (R190). -/
def execDecB (s : State) : Host.Outcome State Fault Refusal := (decOperand (.reg .b) s).outcome

/-- INC C (R188). -/
def execIncC (s : State) : Host.Outcome State Fault Refusal := (incOperand (.reg .c) s).outcome

/-- DEC C (R190). -/
def execDecC (s : State) : Host.Outcome State Fault Refusal := (decOperand (.reg .c) s).outcome

/-- INC D (R188). -/
def execIncD (s : State) : Host.Outcome State Fault Refusal := (incOperand (.reg .d) s).outcome

/-- DEC D (R190). -/
def execDecD (s : State) : Host.Outcome State Fault Refusal := (decOperand (.reg .d) s).outcome

/-- INC E (R188). -/
def execIncE (s : State) : Host.Outcome State Fault Refusal := (incOperand (.reg .e) s).outcome

/-- DEC E (R190). -/
def execDecE (s : State) : Host.Outcome State Fault Refusal := (decOperand (.reg .e) s).outcome

/-- INC H (R188). -/
def execIncH (s : State) : Host.Outcome State Fault Refusal := (incOperand (.reg .h) s).outcome

/-- DEC H (R190). -/
def execDecH (s : State) : Host.Outcome State Fault Refusal := (decOperand (.reg .h) s).outcome

/-- INC L (R188). -/
def execIncL (s : State) : Host.Outcome State Fault Refusal := (incOperand (.reg .l) s).outcome

/-- DEC L (R190). -/
def execDecL (s : State) : Host.Outcome State Fault Refusal := (decOperand (.reg .l) s).outcome

/-- INC [HL] (R189). -/
def execIncAtHL (s : State) : Host.Outcome State Fault Refusal := (incOperand .atHL s).outcome

/-- DEC [HL] (R191). -/
def execDecAtHL (s : State) : Host.Outcome State Fault Refusal := (decOperand .atHL s).outcome

/-- INC A (R188). -/
def execIncA (s : State) : Host.Outcome State Fault Refusal := (incOperand (.reg .a) s).outcome

/-- DEC A (R190). -/
def execDecA (s : State) : Host.Outcome State Fault Refusal := (decOperand (.reg .a) s).outcome

end Sys2Proof.Machine
end

