-- ==== Sys2Proof/Machine/Load.lean ====
section
/-! DEFINITION. The load group 0x40-0x7F (41_load.md). -/

namespace Sys2Proof.Machine

/-- The common sequence of the group: source and destination are resolved, the source is read, the destination written
(41_load.md R144). -/
def loadOperand (dst src : Slot) (s : State) : Res Unit :=
  (readOperand (s.operand src) s).bind fun v s1 => writeOperand (s.operand dst) v s1

/-- Opcode 0x76 under OPC76_POLICY (41_load.md R143; log entry 11). -/
def loadOrUnsupported (op : Byte) (s : State) : Res Unit :=
  match s.config.opc76Policy with
  | .documentLoad => loadOperand .atHL .atHL s
  | .unsupported => unsupportedOpcode op s

/-- LD B,B (R140). -/
def execLdBB (s : State) : Host.Outcome State Fault Refusal := (loadOperand (.reg .b) (.reg .b) s).outcome

/-- LD B,C (R140). -/
def execLdBC (s : State) : Host.Outcome State Fault Refusal := (loadOperand (.reg .b) (.reg .c) s).outcome

/-- LD B,D (R140). -/
def execLdBD (s : State) : Host.Outcome State Fault Refusal := (loadOperand (.reg .b) (.reg .d) s).outcome

/-- LD B,E (R140). -/
def execLdBE (s : State) : Host.Outcome State Fault Refusal := (loadOperand (.reg .b) (.reg .e) s).outcome

/-- LD B,H (R140). -/
def execLdBH (s : State) : Host.Outcome State Fault Refusal := (loadOperand (.reg .b) (.reg .h) s).outcome

/-- LD B,L (R140). -/
def execLdBL (s : State) : Host.Outcome State Fault Refusal := (loadOperand (.reg .b) (.reg .l) s).outcome

/-- LD B,[HL] (R141). -/
def execLdBAtHL (s : State) : Host.Outcome State Fault Refusal := (loadOperand (.reg .b) .atHL s).outcome

/-- LD B,A (R140). -/
def execLdBA (s : State) : Host.Outcome State Fault Refusal := (loadOperand (.reg .b) (.reg .a) s).outcome

/-- LD C,B (R140). -/
def execLdCB (s : State) : Host.Outcome State Fault Refusal := (loadOperand (.reg .c) (.reg .b) s).outcome

/-- LD C,C (R140). -/
def execLdCC (s : State) : Host.Outcome State Fault Refusal := (loadOperand (.reg .c) (.reg .c) s).outcome

/-- LD C,D (R140). -/
def execLdCD (s : State) : Host.Outcome State Fault Refusal := (loadOperand (.reg .c) (.reg .d) s).outcome

/-- LD C,E (R140). -/
def execLdCE (s : State) : Host.Outcome State Fault Refusal := (loadOperand (.reg .c) (.reg .e) s).outcome

/-- LD C,H (R140). -/
def execLdCH (s : State) : Host.Outcome State Fault Refusal := (loadOperand (.reg .c) (.reg .h) s).outcome

/-- LD C,L (R140). -/
def execLdCL (s : State) : Host.Outcome State Fault Refusal := (loadOperand (.reg .c) (.reg .l) s).outcome

/-- LD C,[HL] (R141). -/
def execLdCAtHL (s : State) : Host.Outcome State Fault Refusal := (loadOperand (.reg .c) .atHL s).outcome

/-- LD C,A (R140). -/
def execLdCA (s : State) : Host.Outcome State Fault Refusal := (loadOperand (.reg .c) (.reg .a) s).outcome

/-- LD D,B (R140). -/
def execLdDB (s : State) : Host.Outcome State Fault Refusal := (loadOperand (.reg .d) (.reg .b) s).outcome

/-- LD D,C (R140). -/
def execLdDC (s : State) : Host.Outcome State Fault Refusal := (loadOperand (.reg .d) (.reg .c) s).outcome

/-- LD D,D (R140). -/
def execLdDD (s : State) : Host.Outcome State Fault Refusal := (loadOperand (.reg .d) (.reg .d) s).outcome

/-- LD D,E (R140). -/
def execLdDE (s : State) : Host.Outcome State Fault Refusal := (loadOperand (.reg .d) (.reg .e) s).outcome

/-- LD D,H (R140). -/
def execLdDH (s : State) : Host.Outcome State Fault Refusal := (loadOperand (.reg .d) (.reg .h) s).outcome

/-- LD D,L (R140). -/
def execLdDL (s : State) : Host.Outcome State Fault Refusal := (loadOperand (.reg .d) (.reg .l) s).outcome

/-- LD D,[HL] (R141). -/
def execLdDAtHL (s : State) : Host.Outcome State Fault Refusal := (loadOperand (.reg .d) .atHL s).outcome

/-- LD D,A (R140). -/
def execLdDA (s : State) : Host.Outcome State Fault Refusal := (loadOperand (.reg .d) (.reg .a) s).outcome

/-- LD E,B (R140). -/
def execLdEB (s : State) : Host.Outcome State Fault Refusal := (loadOperand (.reg .e) (.reg .b) s).outcome

/-- LD E,C (R140). -/
def execLdEC (s : State) : Host.Outcome State Fault Refusal := (loadOperand (.reg .e) (.reg .c) s).outcome

/-- LD E,D (R140). -/
def execLdED (s : State) : Host.Outcome State Fault Refusal := (loadOperand (.reg .e) (.reg .d) s).outcome

/-- LD E,E (R140). -/
def execLdEE (s : State) : Host.Outcome State Fault Refusal := (loadOperand (.reg .e) (.reg .e) s).outcome

/-- LD E,H (R140). -/
def execLdEH (s : State) : Host.Outcome State Fault Refusal := (loadOperand (.reg .e) (.reg .h) s).outcome

/-- LD E,L (R140). -/
def execLdEL (s : State) : Host.Outcome State Fault Refusal := (loadOperand (.reg .e) (.reg .l) s).outcome

/-- LD E,[HL] (R141). -/
def execLdEAtHL (s : State) : Host.Outcome State Fault Refusal := (loadOperand (.reg .e) .atHL s).outcome

/-- LD E,A (R140). -/
def execLdEA (s : State) : Host.Outcome State Fault Refusal := (loadOperand (.reg .e) (.reg .a) s).outcome

/-- LD H,B (R140). -/
def execLdHB (s : State) : Host.Outcome State Fault Refusal := (loadOperand (.reg .h) (.reg .b) s).outcome

/-- LD H,C (R140). -/
def execLdHC (s : State) : Host.Outcome State Fault Refusal := (loadOperand (.reg .h) (.reg .c) s).outcome

/-- LD H,D (R140). -/
def execLdHD (s : State) : Host.Outcome State Fault Refusal := (loadOperand (.reg .h) (.reg .d) s).outcome

/-- LD H,E (R140). -/
def execLdHE (s : State) : Host.Outcome State Fault Refusal := (loadOperand (.reg .h) (.reg .e) s).outcome

/-- LD H,H (R140). -/
def execLdHH (s : State) : Host.Outcome State Fault Refusal := (loadOperand (.reg .h) (.reg .h) s).outcome

/-- LD H,L (R140). -/
def execLdHL (s : State) : Host.Outcome State Fault Refusal := (loadOperand (.reg .h) (.reg .l) s).outcome

/-- LD H,[HL] (R141). -/
def execLdHAtHL (s : State) : Host.Outcome State Fault Refusal := (loadOperand (.reg .h) .atHL s).outcome

/-- LD H,A (R140). -/
def execLdHA (s : State) : Host.Outcome State Fault Refusal := (loadOperand (.reg .h) (.reg .a) s).outcome

/-- LD L,B (R140). -/
def execLdLB (s : State) : Host.Outcome State Fault Refusal := (loadOperand (.reg .l) (.reg .b) s).outcome

/-- LD L,C (R140). -/
def execLdLC (s : State) : Host.Outcome State Fault Refusal := (loadOperand (.reg .l) (.reg .c) s).outcome

/-- LD L,D (R140). -/
def execLdLD (s : State) : Host.Outcome State Fault Refusal := (loadOperand (.reg .l) (.reg .d) s).outcome

/-- LD L,E (R140). -/
def execLdLE (s : State) : Host.Outcome State Fault Refusal := (loadOperand (.reg .l) (.reg .e) s).outcome

/-- LD L,H (R140). -/
def execLdLH (s : State) : Host.Outcome State Fault Refusal := (loadOperand (.reg .l) (.reg .h) s).outcome

/-- LD L,L (R140). -/
def execLdLL (s : State) : Host.Outcome State Fault Refusal := (loadOperand (.reg .l) (.reg .l) s).outcome

/-- LD L,[HL] (R141). -/
def execLdLAtHL (s : State) : Host.Outcome State Fault Refusal := (loadOperand (.reg .l) .atHL s).outcome

/-- LD L,A (R140). -/
def execLdLA (s : State) : Host.Outcome State Fault Refusal := (loadOperand (.reg .l) (.reg .a) s).outcome

/-- LD [HL],B (R142). -/
def execLdAtHLB (s : State) : Host.Outcome State Fault Refusal := (loadOperand .atHL (.reg .b) s).outcome

/-- LD [HL],C (R142). -/
def execLdAtHLC (s : State) : Host.Outcome State Fault Refusal := (loadOperand .atHL (.reg .c) s).outcome

/-- LD [HL],D (R142). -/
def execLdAtHLD (s : State) : Host.Outcome State Fault Refusal := (loadOperand .atHL (.reg .d) s).outcome

/-- LD [HL],E (R142). -/
def execLdAtHLE (s : State) : Host.Outcome State Fault Refusal := (loadOperand .atHL (.reg .e) s).outcome

/-- LD [HL],H (R142). -/
def execLdAtHLH (s : State) : Host.Outcome State Fault Refusal := (loadOperand .atHL (.reg .h) s).outcome

/-- LD [HL],L (R142). -/
def execLdAtHLL (s : State) : Host.Outcome State Fault Refusal := (loadOperand .atHL (.reg .l) s).outcome

/-- LD [HL],[HL] (R143). -/
def execLdAtHLAtHL (s : State) : Host.Outcome State Fault Refusal := (loadOrUnsupported 0x76 s).outcome

/-- LD [HL],A (R142). -/
def execLdAtHLA (s : State) : Host.Outcome State Fault Refusal := (loadOperand .atHL (.reg .a) s).outcome

/-- LD A,B (R140). -/
def execLdAB (s : State) : Host.Outcome State Fault Refusal := (loadOperand (.reg .a) (.reg .b) s).outcome

/-- LD A,C (R140). -/
def execLdAC (s : State) : Host.Outcome State Fault Refusal := (loadOperand (.reg .a) (.reg .c) s).outcome

/-- LD A,D (R140). -/
def execLdAD (s : State) : Host.Outcome State Fault Refusal := (loadOperand (.reg .a) (.reg .d) s).outcome

/-- LD A,E (R140). -/
def execLdAE (s : State) : Host.Outcome State Fault Refusal := (loadOperand (.reg .a) (.reg .e) s).outcome

/-- LD A,H (R140). -/
def execLdAH (s : State) : Host.Outcome State Fault Refusal := (loadOperand (.reg .a) (.reg .h) s).outcome

/-- LD A,L (R140). -/
def execLdAL (s : State) : Host.Outcome State Fault Refusal := (loadOperand (.reg .a) (.reg .l) s).outcome

/-- LD A,[HL] (R141). -/
def execLdAAtHL (s : State) : Host.Outcome State Fault Refusal := (loadOperand (.reg .a) .atHL s).outcome

/-- LD A,A (R140). -/
def execLdAA (s : State) : Host.Outcome State Fault Refusal := (loadOperand (.reg .a) (.reg .a) s).outcome

end Sys2Proof.Machine
end

