-- ==== Sys2Proof/WellFormed.lean ====
section
/-! DEFINITION. Which terms of Instr stand for an instruction of the core: an illegal or unsupported opcode must be one
(30_encoding.md R103, R105). -/

namespace Sys2Proof

/-- The illegal opcode set (30_encoding.md R103). -/
def illegalOpcodes : List Byte :=
  [0xD3, 0xDB, 0xDD, 0xE3, 0xE4, 0xEB, 0xEC, 0xED, 0xF4, 0xFC, 0xFD]

/-- The unsupported opcode set (30_encoding.md R105). -/
def unsupportedOpcodes : List Byte :=
  [0x01, 0x02, 0x03, 0x06, 0x07, 0x08, 0x09, 0x0A, 0x0B, 0x0E, 0x0F]
    ++ [0x10, 0x11, 0x12, 0x13, 0x16, 0x17, 0x19, 0x1A, 0x1B, 0x1E, 0x1F]
    ++ [0x21, 0x22, 0x23, 0x26, 0x27, 0x29, 0x2A, 0x2B, 0x2E, 0x2F, 0x31]
    ++ [0x32, 0x33, 0x36, 0x37, 0x39, 0x3A, 0x3B, 0x3E, 0x3F, 0xC0, 0xC1]
    ++ [0xC4, 0xC5, 0xC7, 0xC8, 0xC9, 0xCB, 0xCC, 0xCD, 0xCF, 0xD0, 0xD1]
    ++ [0xD4, 0xD5, 0xD7, 0xD8, 0xD9, 0xDC, 0xDF, 0xE0, 0xE1, 0xE2, 0xE5]
    ++ [0xE7, 0xE8, 0xEA, 0xEF, 0xF0, 0xF1, 0xF2, 0xF3, 0xF5, 0xF7, 0xF8]
    ++ [0xF9, 0xFA, 0xFB, 0xFF]

/-- Well-formed: the byte an `illegal` or `unsupported` carries is in its set. -/
def Instr.wf : Instr → Bool
  | .illegal op => illegalOpcodes.contains op
  | .unsupported op => unsupportedOpcodes.contains op
  | _ => true

end Sys2Proof
end

