-- ==== Sys2Proof/Decode.lean ====
section
/-! DEFINITION. The decoder, total on any list of bytes, from the 256-entry table of 30_encoding.md R101, and after it the
encoder, from the formats of R91. The two are written from different tables of the spec. -/

namespace Sys2Proof

/-- One row of the decode table: the instruction, or what its 1 or 2 immediate bytes make of it (30_encoding.md R106). -/
inductive Row where
  | plain (i : Instr)
  | imm8 (f : Byte → Instr)
  | imm16 (f : Word → Instr)

/-- Opcodes 0x00 to 0x0F. -/
def opcodeRows0 : List Row :=
  [.plain .nop, .plain (.unsupported 0x01), .plain (.unsupported 0x02), .plain (.unsupported 0x03),
   .plain .incB, .plain .decB, .plain (.unsupported 0x06), .plain (.unsupported 0x07),
   .plain (.unsupported 0x08), .plain (.unsupported 0x09), .plain (.unsupported 0x0A), .plain (.unsupported 0x0B),
   .plain .incC, .plain .decC, .plain (.unsupported 0x0E), .plain (.unsupported 0x0F)]

/-- Opcodes 0x10 to 0x1F. -/
def opcodeRows1 : List Row :=
  [.plain (.unsupported 0x10), .plain (.unsupported 0x11), .plain (.unsupported 0x12), .plain (.unsupported 0x13),
   .plain .incD, .plain .decD, .plain (.unsupported 0x16), .plain (.unsupported 0x17),
   .imm8 .jr, .plain (.unsupported 0x19), .plain (.unsupported 0x1A), .plain (.unsupported 0x1B),
   .plain .incE, .plain .decE, .plain (.unsupported 0x1E), .plain (.unsupported 0x1F)]

/-- Opcodes 0x20 to 0x2F. -/
def opcodeRows2 : List Row :=
  [.imm8 .jrNZ, .plain (.unsupported 0x21), .plain (.unsupported 0x22), .plain (.unsupported 0x23),
   .plain .incH, .plain .decH, .plain (.unsupported 0x26), .plain (.unsupported 0x27),
   .imm8 .jrZ, .plain (.unsupported 0x29), .plain (.unsupported 0x2A), .plain (.unsupported 0x2B),
   .plain .incL, .plain .decL, .plain (.unsupported 0x2E), .plain (.unsupported 0x2F)]

/-- Opcodes 0x30 to 0x3F. -/
def opcodeRows3 : List Row :=
  [.imm8 .jrNC, .plain (.unsupported 0x31), .plain (.unsupported 0x32), .plain (.unsupported 0x33),
   .plain .incAtHL, .plain .decAtHL, .plain (.unsupported 0x36), .plain (.unsupported 0x37),
   .imm8 .jrC, .plain (.unsupported 0x39), .plain (.unsupported 0x3A), .plain (.unsupported 0x3B),
   .plain .incA, .plain .decA, .plain (.unsupported 0x3E), .plain (.unsupported 0x3F)]

/-- Opcodes 0x40 to 0x4F. -/
def opcodeRows4 : List Row :=
  [.plain .ldBB, .plain .ldBC, .plain .ldBD, .plain .ldBE,
   .plain .ldBH, .plain .ldBL, .plain .ldBAtHL, .plain .ldBA,
   .plain .ldCB, .plain .ldCC, .plain .ldCD, .plain .ldCE,
   .plain .ldCH, .plain .ldCL, .plain .ldCAtHL, .plain .ldCA]

/-- Opcodes 0x50 to 0x5F. -/
def opcodeRows5 : List Row :=
  [.plain .ldDB, .plain .ldDC, .plain .ldDD, .plain .ldDE,
   .plain .ldDH, .plain .ldDL, .plain .ldDAtHL, .plain .ldDA,
   .plain .ldEB, .plain .ldEC, .plain .ldED, .plain .ldEE,
   .plain .ldEH, .plain .ldEL, .plain .ldEAtHL, .plain .ldEA]

/-- Opcodes 0x60 to 0x6F. -/
def opcodeRows6 : List Row :=
  [.plain .ldHB, .plain .ldHC, .plain .ldHD, .plain .ldHE,
   .plain .ldHH, .plain .ldHL, .plain .ldHAtHL, .plain .ldHA,
   .plain .ldLB, .plain .ldLC, .plain .ldLD, .plain .ldLE,
   .plain .ldLH, .plain .ldLL, .plain .ldLAtHL, .plain .ldLA]

/-- Opcodes 0x70 to 0x7F. -/
def opcodeRows7 : List Row :=
  [.plain .ldAtHLB, .plain .ldAtHLC, .plain .ldAtHLD, .plain .ldAtHLE,
   .plain .ldAtHLH, .plain .ldAtHLL, .plain .ldAtHLAtHL, .plain .ldAtHLA,
   .plain .ldAB, .plain .ldAC, .plain .ldAD, .plain .ldAE,
   .plain .ldAH, .plain .ldAL, .plain .ldAAtHL, .plain .ldAA]

/-- Opcodes 0x80 to 0x8F. -/
def opcodeRows8 : List Row :=
  [.plain .addAB, .plain .addAC, .plain .addAD, .plain .addAE,
   .plain .addAH, .plain .addAL, .plain .addAAtHL, .plain .addAA,
   .plain .adcAB, .plain .adcAC, .plain .adcAD, .plain .adcAE,
   .plain .adcAH, .plain .adcAL, .plain .adcAAtHL, .plain .adcAA]

/-- Opcodes 0x90 to 0x9F. -/
def opcodeRows9 : List Row :=
  [.plain .subAB, .plain .subAC, .plain .subAD, .plain .subAE,
   .plain .subAH, .plain .subAL, .plain .subAAtHL, .plain .subAA,
   .plain .sbcAB, .plain .sbcAC, .plain .sbcAD, .plain .sbcAE,
   .plain .sbcAH, .plain .sbcAL, .plain .sbcAAtHL, .plain .sbcAA]

/-- Opcodes 0xA0 to 0xAF. -/
def opcodeRowsA : List Row :=
  [.plain .andAB, .plain .andAC, .plain .andAD, .plain .andAE,
   .plain .andAH, .plain .andAL, .plain .andAAtHL, .plain .andAA,
   .plain .xorAB, .plain .xorAC, .plain .xorAD, .plain .xorAE,
   .plain .xorAH, .plain .xorAL, .plain .xorAAtHL, .plain .xorAA]

/-- Opcodes 0xB0 to 0xBF. -/
def opcodeRowsB : List Row :=
  [.plain .orAB, .plain .orAC, .plain .orAD, .plain .orAE,
   .plain .orAH, .plain .orAL, .plain .orAAtHL, .plain .orAA,
   .plain .cpAB, .plain .cpAC, .plain .cpAD, .plain .cpAE,
   .plain .cpAH, .plain .cpAL, .plain .cpAAtHL, .plain .cpAA]

/-- Opcodes 0xC0 to 0xCF. -/
def opcodeRowsC : List Row :=
  [.plain (.unsupported 0xC0), .plain (.unsupported 0xC1), .imm16 .jpNZ, .imm16 .jp,
   .plain (.unsupported 0xC4), .plain (.unsupported 0xC5), .imm8 .addAImm, .plain (.unsupported 0xC7),
   .plain (.unsupported 0xC8), .plain (.unsupported 0xC9), .imm16 .jpZ, .plain (.unsupported 0xCB),
   .plain (.unsupported 0xCC), .plain (.unsupported 0xCD), .imm8 .adcAImm, .plain (.unsupported 0xCF)]

/-- Opcodes 0xD0 to 0xDF. -/
def opcodeRowsD : List Row :=
  [.plain (.unsupported 0xD0), .plain (.unsupported 0xD1), .imm16 .jpNC, .plain (.illegal 0xD3),
   .plain (.unsupported 0xD4), .plain (.unsupported 0xD5), .imm8 .subAImm, .plain (.unsupported 0xD7),
   .plain (.unsupported 0xD8), .plain (.unsupported 0xD9), .imm16 .jpC, .plain (.illegal 0xDB),
   .plain (.unsupported 0xDC), .plain (.illegal 0xDD), .imm8 .sbcAImm, .plain (.unsupported 0xDF)]

/-- Opcodes 0xE0 to 0xEF. -/
def opcodeRowsE : List Row :=
  [.plain (.unsupported 0xE0), .plain (.unsupported 0xE1), .plain (.unsupported 0xE2), .plain (.illegal 0xE3),
   .plain (.illegal 0xE4), .plain (.unsupported 0xE5), .imm8 .andAImm, .plain (.unsupported 0xE7),
   .plain (.unsupported 0xE8), .plain .jpHL, .plain (.unsupported 0xEA), .plain (.illegal 0xEB),
   .plain (.illegal 0xEC), .plain (.illegal 0xED), .imm8 .xorAImm, .plain (.unsupported 0xEF)]

/-- Opcodes 0xF0 to 0xFF. -/
def opcodeRowsF : List Row :=
  [.plain (.unsupported 0xF0), .plain (.unsupported 0xF1), .plain (.unsupported 0xF2), .plain (.unsupported 0xF3),
   .plain (.illegal 0xF4), .plain (.unsupported 0xF5), .imm8 .orAImm, .plain (.unsupported 0xF7),
   .plain (.unsupported 0xF8), .plain (.unsupported 0xF9), .plain (.unsupported 0xFA), .plain (.unsupported 0xFB),
   .plain (.illegal 0xFC), .plain (.illegal 0xFD), .imm8 .cpAImm, .plain (.unsupported 0xFF)]

/-- The decode table, indexed by the opcode byte (30_encoding.md R101; opcode_table.json). -/
def opcodeTable : List Row :=
  opcodeRows0 ++ opcodeRows1 ++ opcodeRows2 ++ opcodeRows3
    ++ opcodeRows4 ++ opcodeRows5 ++ opcodeRows6 ++ opcodeRows7
    ++ opcodeRows8 ++ opcodeRows9 ++ opcodeRowsA ++ opcodeRowsB
    ++ opcodeRowsC ++ opcodeRowsD ++ opcodeRowsE ++ opcodeRowsF

/-- The row of an opcode byte. The table has 256 rows, so the default is never taken. -/
def rowOf (op : Byte) : Row := opcodeTable.getD op.toNat (.plain (.illegal op))

/-- Why a list of bytes decodes to no instruction: it ends too early. Every opcode byte itself decodes. -/
inductive DecodeError where
  | noOpcode
  | immediateMissing (op : Byte)
  deriving DecidableEq, Repr

/-- The instruction at the head of a list of bytes, and the rest of the list. -/
def decode : List Byte → Except DecodeError (Instr × List Byte)
  | [] => .error .noOpcode
  | op :: rest =>
    match rowOf op, rest with
    | .plain i, rest => .ok (i, rest)
    | .imm8 f, n :: rest => .ok (f n, rest)
    | .imm16 f, lo :: hi :: rest => .ok (f (compose16 lo hi), rest)
    | _, _ => .error (.immediateMissing op)

/-- The instruction of a word numbered as spec/opcode_table.json numbers it: the first byte is bits 7..0, and every bit
from `nbits` on is 0. -/
def decodeTableWord (nbits w : Nat) : Option Instr :=
  match decode [BitVec.ofNat 8 (w % 2 ^ nbits), BitVec.ofNat 8 (w % 2 ^ nbits / 256),
      BitVec.ofNat 8 (w % 2 ^ nbits / 65536)] with
  | .ok (i, _) => some i
  | .error _ => none

/-- The 3-bit code of a register (10_state.md R21). -/
def Reg8.code : Reg8 → BitVec 3
  | .b => 0
  | .c => 1
  | .d => 2
  | .e => 3
  | .h => 4
  | .l => 5
  | .a => 7

/-- The 3-bit code of an operand field: 6 is [HL] (30_encoding.md R92). -/
def Slot.code : Slot → BitVec 3
  | .reg r => r.code
  | .atHL => 6

/-- The 2-bit code of a condition (10_state.md R26). -/
def Cond.code : Cond → BitVec 2
  | .nz => 0
  | .z => 1
  | .nc => 2
  | .c => 3

/-- The 3-bit code of an ALU operation (30_encoding.md R94). -/
def AluOp.code : AluOp → BitVec 3
  | .add => 0
  | .adc => 1
  | .sub => 2
  | .sbc => 3
  | .and => 4
  | .xor => 5
  | .or => 6
  | .cp => 7

/-- The opcode byte of a form, from the bit patterns of 30_encoding.md R91. -/
def Form.opcode : Form → Byte
  | .nop => 0x00
  | .jp _ => 0b11000011
  | .jpCond cc _ => 0b110#3 ++ cc.code ++ 0b010#3
  | .jr _ => 0b00011000
  | .jrCond cc _ => 0b001#3 ++ cc.code ++ 0b000#3
  | .jpHL => 0xE9
  | .ld dst src => 0b01#2 ++ dst.code ++ src.code
  | .alu o src => 0b10#2 ++ o.code ++ src.code
  | .aluImm o _ => 0b11#2 ++ o.code ++ 0b110#3
  | .inc t => 0b00#2 ++ t.code ++ 0b100#3
  | .dec t => 0b00#2 ++ t.code ++ 0b101#3
  | .illegal op => op
  | .unsupported op => op

/-- The immediate bytes of a form, in the order they are fetched (30_encoding.md R91, R96, R97, R102). -/
def Form.immediates : Form → List Byte
  | .jp target => [(decompose16 target).1, (decompose16 target).2]
  | .jpCond _ target => [(decompose16 target).1, (decompose16 target).2]
  | .jr disp => [disp]
  | .jrCond _ disp => [disp]
  | .aluImm _ n => [n]
  | _ => []

/-- The form of each instruction, from its mnemonic. -/
def Instr.form : Instr → Form
  | .nop => .nop
  | .unsupported op => .unsupported op
  | .incB => .inc (.reg .b)
  | .decB => .dec (.reg .b)
  | .incC => .inc (.reg .c)
  | .decC => .dec (.reg .c)
  | .incD => .inc (.reg .d)
  | .decD => .dec (.reg .d)
  | .jr disp => .jr disp
  | .incE => .inc (.reg .e)
  | .decE => .dec (.reg .e)
  | .jrNZ disp => .jrCond .nz disp
  | .incH => .inc (.reg .h)
  | .decH => .dec (.reg .h)
  | .jrZ disp => .jrCond .z disp
  | .incL => .inc (.reg .l)
  | .decL => .dec (.reg .l)
  | .jrNC disp => .jrCond .nc disp
  | .incAtHL => .inc .atHL
  | .decAtHL => .dec .atHL
  | .jrC disp => .jrCond .c disp
  | .incA => .inc (.reg .a)
  | .decA => .dec (.reg .a)
  | .ldBB => .ld (.reg .b) (.reg .b)
  | .ldBC => .ld (.reg .b) (.reg .c)
  | .ldBD => .ld (.reg .b) (.reg .d)
  | .ldBE => .ld (.reg .b) (.reg .e)
  | .ldBH => .ld (.reg .b) (.reg .h)
  | .ldBL => .ld (.reg .b) (.reg .l)
  | .ldBAtHL => .ld (.reg .b) .atHL
  | .ldBA => .ld (.reg .b) (.reg .a)
  | .ldCB => .ld (.reg .c) (.reg .b)
  | .ldCC => .ld (.reg .c) (.reg .c)
  | .ldCD => .ld (.reg .c) (.reg .d)
  | .ldCE => .ld (.reg .c) (.reg .e)
  | .ldCH => .ld (.reg .c) (.reg .h)
  | .ldCL => .ld (.reg .c) (.reg .l)
  | .ldCAtHL => .ld (.reg .c) .atHL
  | .ldCA => .ld (.reg .c) (.reg .a)
  | .ldDB => .ld (.reg .d) (.reg .b)
  | .ldDC => .ld (.reg .d) (.reg .c)
  | .ldDD => .ld (.reg .d) (.reg .d)
  | .ldDE => .ld (.reg .d) (.reg .e)
  | .ldDH => .ld (.reg .d) (.reg .h)
  | .ldDL => .ld (.reg .d) (.reg .l)
  | .ldDAtHL => .ld (.reg .d) .atHL
  | .ldDA => .ld (.reg .d) (.reg .a)
  | .ldEB => .ld (.reg .e) (.reg .b)
  | .ldEC => .ld (.reg .e) (.reg .c)
  | .ldED => .ld (.reg .e) (.reg .d)
  | .ldEE => .ld (.reg .e) (.reg .e)
  | .ldEH => .ld (.reg .e) (.reg .h)
  | .ldEL => .ld (.reg .e) (.reg .l)
  | .ldEAtHL => .ld (.reg .e) .atHL
  | .ldEA => .ld (.reg .e) (.reg .a)
  | .ldHB => .ld (.reg .h) (.reg .b)
  | .ldHC => .ld (.reg .h) (.reg .c)
  | .ldHD => .ld (.reg .h) (.reg .d)
  | .ldHE => .ld (.reg .h) (.reg .e)
  | .ldHH => .ld (.reg .h) (.reg .h)
  | .ldHL => .ld (.reg .h) (.reg .l)
  | .ldHAtHL => .ld (.reg .h) .atHL
  | .ldHA => .ld (.reg .h) (.reg .a)
  | .ldLB => .ld (.reg .l) (.reg .b)
  | .ldLC => .ld (.reg .l) (.reg .c)
  | .ldLD => .ld (.reg .l) (.reg .d)
  | .ldLE => .ld (.reg .l) (.reg .e)
  | .ldLH => .ld (.reg .l) (.reg .h)
  | .ldLL => .ld (.reg .l) (.reg .l)
  | .ldLAtHL => .ld (.reg .l) .atHL
  | .ldLA => .ld (.reg .l) (.reg .a)
  | .ldAtHLB => .ld .atHL (.reg .b)
  | .ldAtHLC => .ld .atHL (.reg .c)
  | .ldAtHLD => .ld .atHL (.reg .d)
  | .ldAtHLE => .ld .atHL (.reg .e)
  | .ldAtHLH => .ld .atHL (.reg .h)
  | .ldAtHLL => .ld .atHL (.reg .l)
  | .ldAtHLAtHL => .ld .atHL .atHL
  | .ldAtHLA => .ld .atHL (.reg .a)
  | .ldAB => .ld (.reg .a) (.reg .b)
  | .ldAC => .ld (.reg .a) (.reg .c)
  | .ldAD => .ld (.reg .a) (.reg .d)
  | .ldAE => .ld (.reg .a) (.reg .e)
  | .ldAH => .ld (.reg .a) (.reg .h)
  | .ldAL => .ld (.reg .a) (.reg .l)
  | .ldAAtHL => .ld (.reg .a) .atHL
  | .ldAA => .ld (.reg .a) (.reg .a)
  | .addAB => .alu .add (.reg .b)
  | .addAC => .alu .add (.reg .c)
  | .addAD => .alu .add (.reg .d)
  | .addAE => .alu .add (.reg .e)
  | .addAH => .alu .add (.reg .h)
  | .addAL => .alu .add (.reg .l)
  | .addAAtHL => .alu .add .atHL
  | .addAA => .alu .add (.reg .a)
  | .adcAB => .alu .adc (.reg .b)
  | .adcAC => .alu .adc (.reg .c)
  | .adcAD => .alu .adc (.reg .d)
  | .adcAE => .alu .adc (.reg .e)
  | .adcAH => .alu .adc (.reg .h)
  | .adcAL => .alu .adc (.reg .l)
  | .adcAAtHL => .alu .adc .atHL
  | .adcAA => .alu .adc (.reg .a)
  | .subAB => .alu .sub (.reg .b)
  | .subAC => .alu .sub (.reg .c)
  | .subAD => .alu .sub (.reg .d)
  | .subAE => .alu .sub (.reg .e)
  | .subAH => .alu .sub (.reg .h)
  | .subAL => .alu .sub (.reg .l)
  | .subAAtHL => .alu .sub .atHL
  | .subAA => .alu .sub (.reg .a)
  | .sbcAB => .alu .sbc (.reg .b)
  | .sbcAC => .alu .sbc (.reg .c)
  | .sbcAD => .alu .sbc (.reg .d)
  | .sbcAE => .alu .sbc (.reg .e)
  | .sbcAH => .alu .sbc (.reg .h)
  | .sbcAL => .alu .sbc (.reg .l)
  | .sbcAAtHL => .alu .sbc .atHL
  | .sbcAA => .alu .sbc (.reg .a)
  | .andAB => .alu .and (.reg .b)
  | .andAC => .alu .and (.reg .c)
  | .andAD => .alu .and (.reg .d)
  | .andAE => .alu .and (.reg .e)
  | .andAH => .alu .and (.reg .h)
  | .andAL => .alu .and (.reg .l)
  | .andAAtHL => .alu .and .atHL
  | .andAA => .alu .and (.reg .a)
  | .xorAB => .alu .xor (.reg .b)
  | .xorAC => .alu .xor (.reg .c)
  | .xorAD => .alu .xor (.reg .d)
  | .xorAE => .alu .xor (.reg .e)
  | .xorAH => .alu .xor (.reg .h)
  | .xorAL => .alu .xor (.reg .l)
  | .xorAAtHL => .alu .xor .atHL
  | .xorAA => .alu .xor (.reg .a)
  | .orAB => .alu .or (.reg .b)
  | .orAC => .alu .or (.reg .c)
  | .orAD => .alu .or (.reg .d)
  | .orAE => .alu .or (.reg .e)
  | .orAH => .alu .or (.reg .h)
  | .orAL => .alu .or (.reg .l)
  | .orAAtHL => .alu .or .atHL
  | .orAA => .alu .or (.reg .a)
  | .cpAB => .alu .cp (.reg .b)
  | .cpAC => .alu .cp (.reg .c)
  | .cpAD => .alu .cp (.reg .d)
  | .cpAE => .alu .cp (.reg .e)
  | .cpAH => .alu .cp (.reg .h)
  | .cpAL => .alu .cp (.reg .l)
  | .cpAAtHL => .alu .cp .atHL
  | .cpAA => .alu .cp (.reg .a)
  | .jpNZ target => .jpCond .nz target
  | .jp target => .jp target
  | .addAImm n => .aluImm .add n
  | .jpZ target => .jpCond .z target
  | .adcAImm n => .aluImm .adc n
  | .jpNC target => .jpCond .nc target
  | .illegal op => .illegal op
  | .subAImm n => .aluImm .sub n
  | .jpC target => .jpCond .c target
  | .sbcAImm n => .aluImm .sbc n
  | .andAImm n => .aluImm .and n
  | .jpHL => .jpHL
  | .xorAImm n => .aluImm .xor n
  | .orAImm n => .aluImm .or n
  | .cpAImm n => .aluImm .cp n

/-- The bytes of an instruction. -/
def encode (i : Instr) : List Byte := i.form.opcode :: i.form.immediates

end Sys2Proof
end

