-- ==== Sys2Proof/Machine/Fetch.lean ====
section
/-! DEFINITION. Fetching an instruction: the opcode byte, then its immediate bytes one at a time, each with its own tick and
its own chance to raise (30_encoding.md R90, R95, R109). -/

namespace Sys2Proof.Machine

/-- The opcode fetch, the decode and the immediate fetches. Every rule with an immediate fetches it before anything else
it does, so the fetches end before the meaning begins (log entry 10). -/
def fetchInstr (s : State) : Res Instr :=
  (fetchByte s).bind fun op s1 =>
    match rowOf op with
    | .plain i => .ok i s1
    | .imm8 f => (fetchByte s1).bind fun n s2 => .ok (f n) s2
    | .imm16 f =>
      (fetchByte s1).bind fun lo s2 =>
        (fetchByte s2).bind fun hi s3 => .ok (f (compose16 lo hi)) s3

/-- The state with three bytes placed where the next instruction is fetched, and running (log entry 5). -/
def loadAtPc (s : State) (b0 b1 b2 : Byte) : State :=
  { s with
    status := .running
    mem := ((s.mem.load s.pc b0).load (s.pc + 1) b1).load (s.pc + 2) b2 }

/-- A word numbered as spec/opcode_table.json numbers it, placed where the next instruction is fetched: its first byte
(bits 7..0) at PC. -/
def loadWordAtPc (s : State) (nbits w : Nat) : State :=
  loadAtPc s (BitVec.ofNat 8 (w % 2 ^ nbits)) (BitVec.ofNat 8 (w % 2 ^ nbits / 256))
    (BitVec.ofNat 8 (w % 2 ^ nbits / 65536))

end Sys2Proof.Machine
end

