-- ==== Sys2Proof/Machine/Step.lean ====
section
/-! DEFINITION. One step of the core (30_encoding.md R109). -/

namespace Sys2Proof.Machine

/-- One step: defined only while running (10_state.md R32). A faulted or refused state is terminal (60_exceptions.md R234):
there the step stops with what the status records (log entry 1). -/
def step (s : State) : Host.Outcome State Fault Refusal :=
  match s.status with
  | .faulted f => .fault f
  | .refused pc op => .refused (.unsupportedOpcode pc op)
  | .running =>
    match fetchInstr s with
    | .ok i s1 => exec i s1
    | .raised s1 => .next s1

/-- The state with an instruction's word where the next step fetches it. Past the ROM image, or in an absent external-RAM bank,
cells beside the loaded ones come to exist too and read 0x00 (DESIGN CHOICE, log entry 5; `MemoryMap.load`). -/
def State.withFetchWord (s : State) (nbits w : Nat) : State := loadWordAtPc s nbits w

end Sys2Proof.Machine
end

