-- ==== Sys2Proof/Machine/Engine.lean ====
section
/-! DEFINITION. The step once more, written the other way the spec gives it: from the opcode's bit fields and ranges
(30_encoding.md R91, R93, R94, R101), with the operand resolver (R98) and every immediate fetched inside the rule of its
group. It shares no table, decoder or dispatch with `step`; that the two agree is a statement about both. -/

namespace Sys2Proof.Machine

/-- The ALU operation of a 3-bit field (30_encoding.md R94). -/
def aluOpOfField (o : BitVec 3) : AluOp :=
  match o.toNat with
  | 0 => .add
  | 1 => .adc
  | 2 => .sub
  | 3 => .sbc
  | 4 => .and
  | 5 => .xor
  | 6 => .or
  | _ => .cp

/-- The load group's common sequence on a raw opcode (41_load.md R144). -/
def rawLoad (op : Byte) (s : State) : Res Unit :=
  (resolve false op .low s).bind fun src s1 =>
    (resolve false op .high s1).bind fun dst s2 =>
      (readOperand src s2).bind fun v s3 => writeOperand dst v s3

/-- The ALU group's common sequence on a raw opcode (42_alu.md R162). -/
def rawAlu (imm : Bool) (op : Byte) (s : State) : Res Unit :=
  (resolve imm op .low s).bind fun src s1 =>
    (readOperand src s1).bind fun v s2 =>
      let o := aluOpOfField (op.extractLsb' 3 3)
      let x := aluCompute s2.config.carryInMode o s2.a v (s2.flag .c)
      .ok () ((if o = .cp then s2 else s2.setReg .a x.r).setFlags x.z x.n x.h x.c)

/-- INC and DEC on a raw opcode: bit 0 set is DEC (42_alu.md R188 to R191; 30_encoding.md R91). -/
def rawIncDec (op : Byte) (s : State) : Res Unit :=
  (resolve false op .high s).bind fun t s1 =>
    (readOperand t s1).bind fun v s2 =>
      let x := if op.getLsbD 0 then dec8 v else inc8 v
      (writeOperand t x.r s2).bind fun _ s3 =>
        .ok () (s3.setFlags (x.r == 0) (op.getLsbD 0) x.h (s3.flag .c))

/-- The taken-branch tick and the jump, when a condition holds (40_control.md R121 to R124). -/
def rawBranch (taken : Except Fault Bool) (target : Word) (s : State) : Res Unit :=
  match taken with
  | .error f => .raised (s.raise f)
  | .ok false => .ok () s
  | .ok true => .ok () { s.tick with pc := target }

/-- JP a16 and JP cc,a16 on a raw opcode: 0xC3 is unconditional (40_control.md R121, R122; 30_encoding.md R93). -/
def rawJp (op : Byte) (s : State) : Res Unit :=
  (fetchByte s).bind fun lo s1 =>
    (fetchByte s1).bind fun hi s2 =>
      rawBranch (if op = 0xC3 then .ok true else evaluateCondition (op.extractLsb' 3 2).toNat s2)
        (compose16 lo hi) s2

/-- JR e8 and JR cc,e8 on a raw opcode: 0x18 is unconditional (40_control.md R123, R124; 30_encoding.md R93). -/
def rawJr (op : Byte) (s : State) : Res Unit :=
  (fetchByte s).bind fun e s1 =>
    rawBranch (if op = 0x18 then .ok true else evaluateCondition (op.extractLsb' 3 2).toNat s1)
      (s1.pc + sext16 e) s1

/-- The rule of the group an opcode falls in, by the rows of 30_encoding.md R101. -/
def rawExecute (op : Byte) (s : State) : Res Unit :=
  if op = 0x00 then .ok () s
  else if op = 0xC3 ∨ op = 0xC2 ∨ op = 0xCA ∨ op = 0xD2 ∨ op = 0xDA then rawJp op s
  else if op = 0x18 ∨ op = 0x20 ∨ op = 0x28 ∨ op = 0x30 ∨ op = 0x38 then rawJr op s
  else if op = 0xE9 then .ok () { s with pc := s.readPair .hl }
  else if op = 0x76 ∧ s.config.opc76Policy = .unsupported then unsupportedOpcode op s
  else if 0x40 ≤ op ∧ op ≤ 0x7F then rawLoad op s
  else if 0x80 ≤ op ∧ op ≤ 0xBF then rawAlu false op s
  else if op.extractLsb' 6 2 = 3 ∧ op.extractLsb' 0 3 = 6 then rawAlu true op s
  else if op.extractLsb' 6 2 = 0 ∧ op.extractLsb' 1 2 = 2 then rawIncDec op s
  else if op ∈ [(0xD3 : Byte), 0xDB, 0xDD, 0xE3, 0xE4, 0xEB, 0xEC, 0xED, 0xF4, 0xFC, 0xFD] then raiseIllegal op s
  else unsupportedOpcode op s

/-- Fetch, Decode, Execute of a running core (30_encoding.md R109). -/
def rawStep (s : State) : Res Unit :=
  (fetchByte s).bind fun op s1 => rawExecute op s1

end Sys2Proof.Machine
end

