-- ==== Sys2Proof/Machine/Run.lean ====
section
/-! DEFINITION. What the host observes of a run: its result (10_state.md R38), bounded runs (92_eei_decisions.md D17) and the
harness of the source's own examples (70_reset_and_hazards.md R269). -/

namespace Sys2Proof.Machine

/-- How a run ended: on an error (60_exceptions.md R230), or refused under UNSUPPORTED_POLICY = Refuse
(43_illegal_unsupported.md R222). -/
inductive RunEnd where
  | faulted (f : Fault)
  | refused (pc : Word) (opcode : Byte)
  deriving DecidableEq, Repr

/-- How the run ended that left this state; `none` while it runs (92_eei_decisions.md D17 (b)). -/
def State.runEnd (s : State) : Option RunEnd :=
  match s.status with
  | .running => none
  | .faulted f => some (.faulted f)
  | .refused pc op => some (.refused pc op)

/-- One pass of the run loop: a step while Running; a run that has ended stays in its final state (10_state.md R32). -/
def runStep (s : State) : State :=
  match step s with
  | .next s' => s'
  | .fault _ => s
  | .refused _ => s

/-- A run of `k` steps (92_eei_decisions.md D17 (c)): the state at its last step boundary, which is the final state when the
run ends at the `k`-th step or before. -/
def runSteps : Nat → State → State
  | 0, s => s
  | k + 1, s => runSteps k (runStep s)

/-- The result of "run" (10_state.md R38): how the run ended and its final state, when it ends within `k` steps; `none` when
it does not. -/
def runResult (k : Nat) (s : State) : Option (RunEnd × State) :=
  (runSteps k s).runEnd.map fun e => (e, runSteps k s)

/-- A step boundary at which a run bounded by the end address `stop` is over: PC is `stop`, or the run has ended. -/
def State.boundReached (stop : Word) (s : State) : Bool := decide (s.pc = stop) || s.runEnd.isSome

/-- The run bounded by the end address `stop` (92_eei_decisions.md D17 (c)): the state at its first step boundary where PC is
`stop` or the run has ended, the boundary after the `k`-th step included; `none` when there is none within `k` steps. -/
def runUntil (stop : Word) : Nat → State → Option State
  | 0, s => if s.boundReached stop then some s else none
  | k + 1, s => if s.boundReached stop then some s else runUntil stop k (runStep s)

/-- The state the source's figures are read off: one step, then the fetch of the next opcode, not executed
(70_reset_and_hazards.md R269). From a state that no longer runs no fetch is made (60_exceptions.md R234). -/
def harness (s : State) : State :=
  match step s with
  | .next s1 =>
    match s1.status, fetchByte s1 with
    | .running, .ok _ s2 => s2
    | .running, .raised s2 => s2
    | _, _ => s1
  | .fault _ => s
  | .refused _ => s

end Sys2Proof.Machine
end

