-- ==== Sys2Proof/Safety.lean ====
section
/-! DEFINITION. What counts as a legal state and as a safe run. -/

namespace Sys2Proof.Machine

/-- What holds of every state a core can be in: F's low nibble is zero (10_state.md R23), the bank indices hold their
construction values (R31), the stores are in canonical form and as large as they were made (20_memory.md R51). -/
def State.Inv (s : State) : Prop :=
  s.f.extractLsb' 0 4 = 0#4 ∧ s.mem.banksFixed = true ∧ s.mem.wf = true

/-- A run of `k` steps that raises no error and is not refused (60_exceptions.md R234). -/
def SafeRun (k : Nat) (s : State) : Prop :=
  ∃ t : State, Sys2Proof.core.run k s = .next t ∧ t.status = .running

/-- A safe run that executes no unsupported opcode, the premise of every claim that is to hold of the SM83 too
(43_illegal_unsupported.md R221). -/
def CleanRun (k : Nat) (s : State) : Prop :=
  ∃ t : State, Sys2Proof.core.run k s = .next t ∧ t.status = .running ∧ t.unsupportedSeen = none

end Sys2Proof.Machine
end

