-- ==== Sys2Proof/Certificates/Slice0/Obligations.lean ====
section
/-! DEFINITION. The statements about the model. A statement about an instruction gives its bytes, what exec answers for it,
and what a step from a running core with those bytes at PC answers, ticks included. -/

namespace Sys2Proof.Claims
open Sys2Proof Sys2Proof.Machine

/-- From address `a` on, the bytes stand in memory, each readable. -/
def BytesAt (s : State) : Word → List Byte → Prop
  | _, [] => True
  | a, b :: bs => s.mem.read a = .ok b ∧ BytesAt s (a + 1) bs

/-- The core runs, and the bytes stand from PC on. -/
def Ready (s : State) (bytes : List Byte) : Prop := s.status = .running ∧ BytesAt s s.pc bytes

/-- `s` with PC `n` further, modulo 2^16, and `t` ticks later. -/
def advanced (s : State) (n : Word) (t : Nat) : State := { s with pc := s.pc + n, mcycles := s.mcycles + t }

/-- The bytes are one instruction, `i`. -/
def Encodes (bytes : List Byte) (i : Instr) : Prop := decode bytes = .ok (i, [])

/-- Opcode `op` with its second byte unreadable: one tick per byte tried, PC on the missing byte. -/
def SecondByteFault (op : Byte) : Prop :=
  ∀ s x, Ready s [op] → s.mem.read (s.pc + 1) = .error x →
    step s = .next { advanced s 1 2 with status := .faulted x }

/-- Opcode `op` with its third byte unreadable. -/
def ThirdByteFault (op : Byte) : Prop :=
  ∀ s lo x, Ready s [op, lo] → s.mem.read (s.pc + 2) = .error x →
    step s = .next { advanced s 2 3 with status := .faulted x }

/-- An address every write of this core reaches a cell through: not ROM, not prohibited, not in the window of an absent
external-RAM bank (20_memory.md R55). -/
def Writable (s : State) (a : Word) : Prop :=
  0x8000 ≤ a.toNat ∧ ¬(0xFEA0 ≤ a.toNat ∧ a.toNat ≤ 0xFEFF) ∧
    (0xA000 ≤ a.toNat ∧ a.toNat ≤ 0xBFFF → 2 ≤ s.mem.mEram)

/-- An address whose read reaches a byte: not beyond the ROM image, not in the window of an absent external-RAM bank
(20_memory.md R54, R56, R57). -/
def Readable (s : State) (a : Word) : Prop :=
  (a.toNat ≤ 0x7FFF → a.toNat < s.mem.romLength) ∧ (0xA000 ≤ a.toNat ∧ a.toNat ≤ 0xBFFF → 2 ≤ s.mem.mEram)

/-- `m` is `m0` with byte `v` stored through address `a`: the write succeeds, the address reads the byte back, and every
address that reaches another cell reads as before. -/
def StoredAt (m0 : MemoryMap) (a : Word) (v : Byte) (m : MemoryMap) : Prop :=
  m0.write a v = .ok m ∧ m.read a = .ok v ∧
    ∀ x : Word, m0.cellOf x.toNat ≠ m0.cellOf a.toNat → m.read x = m0.read x

/-- LD B,r': opcode, instruction, destination, source (41_load.md R140). -/
def ldRegRegRowsB : List (Byte × Instr × Reg8 × Reg8) :=
  [(0x40, .ldBB, .b, .b), (0x41, .ldBC, .b, .c), (0x42, .ldBD, .b, .d), (0x43, .ldBE, .b, .e),
      (0x44, .ldBH, .b, .h), (0x45, .ldBL, .b, .l), (0x47, .ldBA, .b, .a)]

/-- LD C,r': opcode, instruction, destination, source (41_load.md R140). -/
def ldRegRegRowsC : List (Byte × Instr × Reg8 × Reg8) :=
  [(0x48, .ldCB, .c, .b), (0x49, .ldCC, .c, .c), (0x4A, .ldCD, .c, .d), (0x4B, .ldCE, .c, .e),
      (0x4C, .ldCH, .c, .h), (0x4D, .ldCL, .c, .l), (0x4F, .ldCA, .c, .a)]

/-- LD D,r': opcode, instruction, destination, source (41_load.md R140). -/
def ldRegRegRowsD : List (Byte × Instr × Reg8 × Reg8) :=
  [(0x50, .ldDB, .d, .b), (0x51, .ldDC, .d, .c), (0x52, .ldDD, .d, .d), (0x53, .ldDE, .d, .e),
      (0x54, .ldDH, .d, .h), (0x55, .ldDL, .d, .l), (0x57, .ldDA, .d, .a)]

/-- LD E,r': opcode, instruction, destination, source (41_load.md R140). -/
def ldRegRegRowsE : List (Byte × Instr × Reg8 × Reg8) :=
  [(0x58, .ldEB, .e, .b), (0x59, .ldEC, .e, .c), (0x5A, .ldED, .e, .d), (0x5B, .ldEE, .e, .e),
      (0x5C, .ldEH, .e, .h), (0x5D, .ldEL, .e, .l), (0x5F, .ldEA, .e, .a)]

/-- LD H,r': opcode, instruction, destination, source (41_load.md R140). -/
def ldRegRegRowsH : List (Byte × Instr × Reg8 × Reg8) :=
  [(0x60, .ldHB, .h, .b), (0x61, .ldHC, .h, .c), (0x62, .ldHD, .h, .d), (0x63, .ldHE, .h, .e),
      (0x64, .ldHH, .h, .h), (0x65, .ldHL, .h, .l), (0x67, .ldHA, .h, .a)]

/-- LD L,r': opcode, instruction, destination, source (41_load.md R140). -/
def ldRegRegRowsL : List (Byte × Instr × Reg8 × Reg8) :=
  [(0x68, .ldLB, .l, .b), (0x69, .ldLC, .l, .c), (0x6A, .ldLD, .l, .d), (0x6B, .ldLE, .l, .e),
      (0x6C, .ldLH, .l, .h), (0x6D, .ldLL, .l, .l), (0x6F, .ldLA, .l, .a)]

/-- LD A,r': opcode, instruction, destination, source (41_load.md R140). -/
def ldRegRegRowsA : List (Byte × Instr × Reg8 × Reg8) :=
  [(0x78, .ldAB, .a, .b), (0x79, .ldAC, .a, .c), (0x7A, .ldAD, .a, .d), (0x7B, .ldAE, .a, .e),
      (0x7C, .ldAH, .a, .h), (0x7D, .ldAL, .a, .l), (0x7F, .ldAA, .a, .a)]

/-- LD r,r': the 49 opcodes (41_load.md R140). -/
def ldRegRegRows : List (Byte × Instr × Reg8 × Reg8) :=
  ldRegRegRowsB ++ ldRegRegRowsC ++ ldRegRegRowsD ++ ldRegRegRowsE ++ ldRegRegRowsH ++ ldRegRegRowsL ++ ldRegRegRowsA

/-- LD r,[HL]: opcode, instruction, destination (41_load.md R141). -/
def ldRegHlRows : List (Byte × Instr × Reg8) :=
  [(0x46, .ldBAtHL, .b), (0x4E, .ldCAtHL, .c), (0x56, .ldDAtHL, .d), (0x5E, .ldEAtHL, .e),
      (0x66, .ldHAtHL, .h), (0x6E, .ldLAtHL, .l), (0x7E, .ldAAtHL, .a)]

/-- LD [HL],r: opcode, instruction, source (41_load.md R142). -/
def ldHlRegRows : List (Byte × Instr × Reg8) :=
  [(0x70, .ldAtHLB, .b), (0x71, .ldAtHLC, .c), (0x72, .ldAtHLD, .d), (0x73, .ldAtHLE, .e),
      (0x74, .ldAtHLH, .h), (0x75, .ldAtHLL, .l), (0x77, .ldAtHLA, .a)]

/-- ADD A,r: opcode, instruction, operand (42_alu.md R163). -/
def addRows : List (Byte × Instr × Reg8) :=
  [(0x80, .addAB, .b), (0x81, .addAC, .c), (0x82, .addAD, .d), (0x83, .addAE, .e),
      (0x84, .addAH, .h), (0x85, .addAL, .l), (0x87, .addAA, .a)]

/-- ADC A,r: opcode, instruction, operand (42_alu.md R166). -/
def adcRows : List (Byte × Instr × Reg8) :=
  [(0x88, .adcAB, .b), (0x89, .adcAC, .c), (0x8A, .adcAD, .d), (0x8B, .adcAE, .e),
      (0x8C, .adcAH, .h), (0x8D, .adcAL, .l), (0x8F, .adcAA, .a)]

/-- SUB A,r: opcode, instruction, operand (42_alu.md R169). -/
def subRows : List (Byte × Instr × Reg8) :=
  [(0x90, .subAB, .b), (0x91, .subAC, .c), (0x92, .subAD, .d), (0x93, .subAE, .e),
      (0x94, .subAH, .h), (0x95, .subAL, .l), (0x97, .subAA, .a)]

/-- SBC A,r: opcode, instruction, operand (42_alu.md R172). -/
def sbcRows : List (Byte × Instr × Reg8) :=
  [(0x98, .sbcAB, .b), (0x99, .sbcAC, .c), (0x9A, .sbcAD, .d), (0x9B, .sbcAE, .e),
      (0x9C, .sbcAH, .h), (0x9D, .sbcAL, .l), (0x9F, .sbcAA, .a)]

/-- AND A,r: opcode, instruction, operand (42_alu.md R175). -/
def andRows : List (Byte × Instr × Reg8) :=
  [(0xA0, .andAB, .b), (0xA1, .andAC, .c), (0xA2, .andAD, .d), (0xA3, .andAE, .e),
      (0xA4, .andAH, .h), (0xA5, .andAL, .l), (0xA7, .andAA, .a)]

/-- XOR A,r: opcode, instruction, operand (42_alu.md R178). -/
def xorRows : List (Byte × Instr × Reg8) :=
  [(0xA8, .xorAB, .b), (0xA9, .xorAC, .c), (0xAA, .xorAD, .d), (0xAB, .xorAE, .e),
      (0xAC, .xorAH, .h), (0xAD, .xorAL, .l), (0xAF, .xorAA, .a)]

/-- OR A,r: opcode, instruction, operand (42_alu.md R181). -/
def orRows : List (Byte × Instr × Reg8) :=
  [(0xB0, .orAB, .b), (0xB1, .orAC, .c), (0xB2, .orAD, .d), (0xB3, .orAE, .e),
      (0xB4, .orAH, .h), (0xB5, .orAL, .l), (0xB7, .orAA, .a)]

/-- CP A,r: opcode, instruction, operand (42_alu.md R184). -/
def cpRows : List (Byte × Instr × Reg8) :=
  [(0xB8, .cpAB, .b), (0xB9, .cpAC, .c), (0xBA, .cpAD, .d), (0xBB, .cpAE, .e),
      (0xBC, .cpAH, .h), (0xBD, .cpAL, .l), (0xBF, .cpAA, .a)]

/-- INC r: opcode, instruction, register (42_alu.md R188). -/
def incRows : List (Byte × Instr × Reg8) :=
  [(0x04, .incB, .b), (0x0C, .incC, .c), (0x14, .incD, .d), (0x1C, .incE, .e),
      (0x24, .incH, .h), (0x2C, .incL, .l), (0x3C, .incA, .a)]

/-- DEC r: opcode, instruction, register (42_alu.md R190). -/
def decRows : List (Byte × Instr × Reg8) :=
  [(0x05, .decB, .b), (0x0D, .decC, .c), (0x15, .decD, .d), (0x1D, .decE, .e),
      (0x25, .decH, .h), (0x2D, .decL, .l), (0x3D, .decA, .a)]

/-- JP cc,a16: opcode, instruction, condition (40_control.md R122). -/
def jpCondRows : List (Byte × (Word → Instr) × Cond) :=
  [(0xC2, .jpNZ, .nz), (0xCA, .jpZ, .z), (0xD2, .jpNC, .nc), (0xDA, .jpC, .c)]

/-- JR cc,e8: opcode, instruction, condition (40_control.md R124). -/
def jrCondRows : List (Byte × (Byte → Instr) × Cond) :=
  [(0x20, .jrNZ, .nz), (0x28, .jrZ, .z), (0x30, .jrNC, .nc), (0x38, .jrC, .c)]

/-- The eight ALU operations on [HL]: opcode, instruction. -/
def aluHlRows : List (Byte × Instr) :=
  [(0x86, .addAAtHL), (0x8E, .adcAAtHL), (0x96, .subAAtHL), (0x9E, .sbcAAtHL),
      (0xA6, .andAAtHL), (0xAE, .xorAAtHL), (0xB6, .orAAtHL), (0xBE, .cpAAtHL)]

/-- What ADD leaves (42_alu.md R163). -/
def addResult (s : State) (v : Byte) : State :=
  { s with
    a := s.a + v
    f := packFlags (s.a + v == 0) false (decide (s.a.toNat % 16 + v.toNat % 16 > 0xF))
      (decide (s.a.toNat + v.toNat > 0xFF)) }

/-- What SUB leaves (42_alu.md R169). -/
def subResult (s : State) (v : Byte) : State :=
  { s with
    a := s.a - v
    f := packFlags (s.a - v == 0) true (decide (s.a.toNat % 16 < v.toNat % 16)) (decide (s.a.toNat < v.toNat)) }

/-- What CP leaves: SUB's flags, A kept (42_alu.md R184). -/
def cpResult (s : State) (v : Byte) : State := { s with f := (subResult s v).f }

/-- F.C as 0 or 1. -/
def carryOf (s : State) : Nat := (s.f.getLsbD 4).toNat

/-- What ADC leaves under the state's CARRY_IN_MODE (42_alu.md R160, R166): the sum modulo 256 under every mode; the
half-carry and the carry of the two-operand sum with the carry in (Separate), or of A and the operand plus the carry in,
taken whole (IncrementedOperand) or modulo 256 (IncrementedOperandWrapped). -/
def adcResult (s : State) (v : Byte) : State :=
  { s with
    a := s.a + v + BitVec.ofNat 8 (carryOf s)
    f := packFlags (s.a + v + BitVec.ofNat 8 (carryOf s) == 0) false
      (match s.config.carryInMode with
        | .separate => decide (s.a.toNat % 16 + v.toNat % 16 + carryOf s > 0xF)
        | .incrementedOperand => decide (s.a.toNat % 16 + (v.toNat + carryOf s) % 16 > 0xF)
        | .incrementedOperandWrapped => decide (s.a.toNat % 16 + (v.toNat + carryOf s) % 16 > 0xF))
      (match s.config.carryInMode with
        | .separate => decide (s.a.toNat + v.toNat + carryOf s > 0xFF)
        | .incrementedOperand => decide (s.a.toNat + v.toNat + carryOf s > 0xFF)
        | .incrementedOperandWrapped => decide (s.a.toNat + (v.toNat + carryOf s) % 256 > 0xFF)) }

/-- What SBC leaves under the state's CARRY_IN_MODE (42_alu.md R161, R172). -/
def sbcResult (s : State) (v : Byte) : State :=
  { s with
    a := s.a - v - BitVec.ofNat 8 (carryOf s)
    f := packFlags (s.a - v - BitVec.ofNat 8 (carryOf s) == 0) true
      (match s.config.carryInMode with
        | .separate => decide (s.a.toNat % 16 < v.toNat % 16 + carryOf s)
        | .incrementedOperand => decide (s.a.toNat % 16 < (v.toNat + carryOf s) % 16)
        | .incrementedOperandWrapped => decide (s.a.toNat % 16 < (v.toNat + carryOf s) % 16))
      (match s.config.carryInMode with
        | .separate => decide (s.a.toNat < v.toNat + carryOf s)
        | .incrementedOperand => decide (s.a.toNat < v.toNat + carryOf s)
        | .incrementedOperandWrapped => decide (s.a.toNat < (v.toNat + carryOf s) % 256)) }

/-- What AND leaves (42_alu.md R175). -/
def andResult (s : State) (v : Byte) : State :=
  { s with a := s.a &&& v, f := packFlags (s.a &&& v == 0) false true false }

/-- What XOR leaves (42_alu.md R178). -/
def xorResult (s : State) (v : Byte) : State :=
  { s with a := s.a ^^^ v, f := packFlags (s.a ^^^ v == 0) false false false }

/-- What OR leaves (42_alu.md R181). -/
def orResult (s : State) (v : Byte) : State :=
  { s with a := s.a ||| v, f := packFlags (s.a ||| v == 0) false false false }

/-- One ALU operation on its three operand forms: a register (1 tick, 1 byte), the byte at HL (2 ticks, 1 byte) when it is
readable, and n8 (2 ticks, 2 bytes). -/
def AluForms (rows : List (Byte × Instr × Reg8)) (hlOp : Byte) (hlInstr : Instr) (immOp : Byte) (immInstr : Byte → Instr)
    (result : State → Byte → State) : Prop :=
  (∀ op i r, (op, i, r) ∈ rows →
    Encodes [op] i ∧
    (∀ s, exec i s = .next (result s (s.reg r))) ∧
    (∀ s, Ready s [op] → step s = .next (result (advanced s 1 1) (s.reg r)))) ∧
  (Encodes [hlOp] hlInstr ∧
    (∀ s v, s.mem.read s.hl = .ok v → exec hlInstr s = .next (result (advanced s 0 1) v)) ∧
    (∀ s v, Ready s [hlOp] → s.mem.read s.hl = .ok v → step s = .next (result (advanced s 1 2) v))) ∧
  (∀ n, Encodes [immOp, n] (immInstr n) ∧
    (∀ s, exec (immInstr n) s = .next (result s n)) ∧
    (∀ s, Ready s [immOp, n] → step s = .next (result (advanced s 2 2) n)))

/-- F after INC (n = false) or DEC (n = true) gave `r` with half-carry `h`: C keeps its value. -/
def countFlags (s : State) (r : Byte) (n h : Bool) : Byte := packFlags (r == 0) n h (s.f.getLsbD 4)

/-- INC or DEC of the byte at HL, whose result is `next v` and half-carry `half v`. -/
def CountAtHl (op : Byte) (i : Instr) (n : Bool) (next : Byte → Byte) (half : Byte → Bool) : Prop :=
  Encodes [op] i ∧
  (∀ s, s.Inv → Writable s s.hl →
    ∃ v m, s.mem.read s.hl = .ok v ∧ StoredAt s.mem s.hl (next v) m ∧
      exec i s = .next { advanced s 0 2 with mem := m, f := countFlags s (next v) n (half v) } ∧
      (Ready s [op] → step s = .next { advanced s 1 3 with mem := m, f := countFlags s (next v) n (half v) }))

/-- The register an instruction of a form writes; none for the others (10_state.md R27). -/
def destination : Form → Option Reg8
  | .ld (.reg r) _ => some r
  | .alu .cp _ => none
  | .alu _ _ => some .a
  | .aluImm .cp _ => none
  | .aluImm _ _ => some .a
  | .inc (.reg r) => some r
  | .dec (.reg r) => some r
  | _ => none

/-- Whether an instruction of a form writes F (10_state.md R27). -/
def writesFlags : Form → Bool
  | .alu _ _ => true
  | .aluImm _ _ => true
  | .inc _ => true
  | .dec _ => true
  | _ => false

/-- Whether an instruction of a form stores at HL (60_exceptions.md R231). -/
def storesAtHl : Form → Bool
  | .ld .atHL _ => true
  | .inc .atHL => true
  | .dec .atHL => true
  | _ => false

/-- Whether an instruction of a form may set PC (10_state.md R27). -/
def jumps : Form → Bool
  | .jp _ => true
  | .jpCond _ _ => true
  | .jr _ => true
  | .jrCond _ _ => true
  | .jpHL => true
  | _ => false

/-- Whether an instruction of a form may set the marker: the unsupported ones, and 0x76 under OPC76_POLICY. -/
def mayMark : Form → Bool
  | .unsupported _ => true
  | .ld .atHL .atHL => true
  | _ => false

/-- One access more for an operand at HL. -/
def slotTicks : Slot → Nat
  | .reg _ => 0
  | .atHL => 1

/-- The cycle table (70_reset_and_hazards.md R267), the opcode fetch included. -/
def cycles (x : Form) (s : State) : Nat :=
  match x with
  | .nop => 1
  | .jp _ => 4
  | .jpCond cc _ => if s.cond cc then 4 else 3
  | .jr _ => 3
  | .jrCond cc _ => if s.cond cc then 3 else 2
  | .jpHL => 1
  | .ld .atHL .atHL => if s.config.opc76Policy = .documentLoad then 3 else 1
  | .ld dst src => 1 + slotTicks src + slotTicks dst
  | .alu _ src => 1 + slotTicks src
  | .aluImm _ _ => 2
  | .inc t => 1 + 2 * slotTicks t
  | .dec t => 1 + 2 * slotTicks t
  | .illegal _ => 1
  | .unsupported _ => 1

/-- Whether a form is an illegal or unsupported opcode. -/
def isGap : Form → Bool
  | .illegal _ => true
  | .unsupported _ => true
  | _ => false

/-- An answer with its clock moved on by `n`. -/
def laterBy (n : Nat) (o : Host.Outcome State Fault Refusal) : Host.Outcome State Fault Refusal :=
  match o with
  | .next s => .next { s with mcycles := s.mcycles + n }
  | .fault x => .fault x
  | .refused x => .refused x

/-- The opcodes that store at HL (60_exceptions.md R231). -/
def storingOpcodes : List Byte := [0x34, 0x35, 0x70, 0x71, 0x72, 0x73, 0x74, 0x75, 0x76, 0x77]

end Sys2Proof.Claims

open Sys2Proof Sys2Proof.Machine Sys2Proof.Claims

/-- 00_scope.md R9, R10, R12. The domain error of extract_bits is not part of this statement. -/
def Obligations.BitPrimitivesComposeAndInsert : Prop :=
  (∀ lo hi : Byte, (compose16 lo hi).toNat = hi.toNat * 256 + lo.toNat ∧ decompose16 (compose16 lo hi) = (lo, hi)) ∧
  (∀ w : Word, decompose16 w = (w.extractLsb' 0 8, w.extractLsb' 8 8)) ∧
  (∀ (b v : Byte) (index length : Nat), index + length ≤ 8 →
    (∃ r, insertBits b index length v = .ok r ∧
      ∀ j, j < 8 → r.getLsbD j = if index ≤ j ∧ j < index + length then v.getLsbD (j - index) else b.getLsbD j) ∧
    (∃ x, extractBits b index length = .ok x ∧ insertBits b index length x = .ok b)) ∧
  (∀ (b v : Byte) (index length : Nat), 8 < index + length → insertBits b index length v = .error .overflowBitWrite)

/-- 10_state.md R21, R26. -/
def Obligations.RegisterAndConditionCodes : Prop :=
  (resolveRegister 0 = .ok .b ∧ resolveRegister 1 = .ok .c ∧ resolveRegister 2 = .ok .d ∧ resolveRegister 3 = .ok .e ∧
    resolveRegister 4 = .ok .h ∧ resolveRegister 5 = .ok .l ∧ resolveRegister 7 = .ok .a) ∧
  (∀ k, k = 6 ∨ 7 < k → resolveRegister k = .error .invalidRegisterIndex) ∧
  (∀ s : State, s.reg .b = s.b ∧ s.reg .c = s.c ∧ s.reg .d = s.d ∧ s.reg .e = s.e ∧ s.reg .h = s.h ∧ s.reg .l = s.l ∧
    s.reg .a = s.a) ∧
  (∀ (s : State) (v : Byte), s.setReg .b v = { s with b := v } ∧ s.setReg .c v = { s with c := v } ∧
    s.setReg .d v = { s with d := v } ∧ s.setReg .e v = { s with e := v } ∧ s.setReg .h v = { s with h := v } ∧
    s.setReg .l v = { s with l := v } ∧ s.setReg .a v = { s with a := v }) ∧
  (∀ s : State, evaluateCondition 0 s = .ok (!s.f.getLsbD 7) ∧ evaluateCondition 1 s = .ok (s.f.getLsbD 7) ∧
    evaluateCondition 2 s = .ok (!s.f.getLsbD 4) ∧ evaluateCondition 3 s = .ok (s.f.getLsbD 4)) ∧
  (∀ (s : State) (k : Nat), 3 < k → evaluateCondition k s = .error .invalidConditionCode)

/-- The register pairs of 10_state.md. That a write of AF clears F[3:0] is DEDUCED, log entry 12. -/
def Obligations.PairsComposeHighByteFirst : Prop :=
  (∀ s : State, s.readPair .bc = compose16 s.c s.b ∧ s.readPair .de = compose16 s.e s.d ∧
    s.readPair .hl = compose16 s.l s.h ∧ s.readPair .af = compose16 s.f s.a) ∧
  (∀ (s : State) (v : Word),
    s.writePair .bc v = { s with b := v.extractLsb' 8 8, c := v.extractLsb' 0 8 } ∧
    s.writePair .de v = { s with d := v.extractLsb' 8 8, e := v.extractLsb' 0 8 } ∧
    s.writePair .hl v = { s with h := v.extractLsb' 8 8, l := v.extractLsb' 0 8 } ∧
    s.writePair .af v = { s with a := v.extractLsb' 8 8, f := v.extractLsb' 0 8 &&& 0xF0 })

/-- 10_state.md R24, R25. -/
def Obligations.FlagWritesTouchOnlyTheirBits : Prop :=
  (∀ s : State, s.flag .z = s.f.getLsbD 7 ∧ s.flag .n = s.f.getLsbD 6 ∧ s.flag .h = s.f.getLsbD 5 ∧
    s.flag .c = s.f.getLsbD 4) ∧
  (∀ (s : State) (fl : Flag) (v : Bool) (j : Nat), j < 8 →
    (s.writeFlag fl (.value v)).f.getLsbD j = (if j = fl.bit then v else s.f.getLsbD j) ∧
    (s.writeFlag fl .toggle).f.getLsbD j = (if j = fl.bit then !s.f.getLsbD j else s.f.getLsbD j)) ∧
  (∀ (s : State) (fl : Flag) (w : FlagWrite), { s.writeFlag fl w with f := s.f } = s) ∧
  (∀ (s : State) (z n h c : Bool),
    s.setFlags z n h c =
      { s with f := BitVec.ofNat 8 (z.toNat * 128 + n.toNat * 64 + h.toNat * 32 + c.toNat * 16) })

/-- The prose under add8 and sub8 in 42_alu.md section 1; the modes are the spec's own decision D3. -/
def Obligations.AddSubModesAgreeWithoutCarry : Prop :=
  (∀ (m m' : CarryInMode) (a v : Byte), add8 m a v false = add8 m' a v false ∧ sub8 m a v false = sub8 m' a v false) ∧
  (∀ a v : Byte,
    (add8 .separate a v true).r = (add8 .incrementedOperand a v true).r ∧
    (add8 .separate a v true).c = (add8 .incrementedOperand a v true).c ∧
    (sub8 .separate a v true).r = (sub8 .incrementedOperand a v true).r ∧
    (sub8 .separate a v true).c = (sub8 .incrementedOperand a v true).c) ∧
  (∀ a v : Byte, v.toNat % 16 ≠ 0xF →
    add8 .separate a v true = add8 .incrementedOperand a v true ∧
    sub8 .separate a v true = sub8 .incrementedOperand a v true) ∧
  (∀ a v : Byte, v.toNat % 16 = 0xF →
    (add8 .separate a v true).h = true ∧ (add8 .incrementedOperand a v true).h = false ∧
    (sub8 .separate a v true).h = true ∧ (sub8 .incrementedOperand a v true).h = false) ∧
  (∀ a v : Byte, v ≠ 0xFF →
    add8 .incrementedOperandWrapped a v true = add8 .incrementedOperand a v true ∧
    sub8 .incrementedOperandWrapped a v true = sub8 .incrementedOperand a v true) ∧
  (∀ a : Byte,
    (add8 .incrementedOperandWrapped a 0xFF true).r = a ∧ (add8 .incrementedOperandWrapped a 0xFF true).c = false ∧
    (sub8 .incrementedOperandWrapped a 0xFF true).r = a ∧ (sub8 .incrementedOperandWrapped a 0xFF true).c = false ∧
    (sub8 .incrementedOperand a 0xFF true).c = true)

/-- 42_alu.md R187 for the two values; that they are the ADD and SUB formulas with operand 1 and no carry-in, in every mode of the
spec's decision D3, is a sentence R187 marks as the spec's own inference from R160 and R161. -/
def Obligations.IncDecHelpersMatchOneOperandAddSub : Prop :=
  ∀ v : Byte,
    inc8 v = { r := v + 1, h := decide (v.toNat % 16 = 0xF) } ∧
    dec8 v = { r := v - 1, h := decide (v.toNat % 16 = 0) } ∧
    ∀ m : CarryInMode,
      (inc8 v).r = (add8 m v 1 false).r ∧ (inc8 v).h = (add8 m v 1 false).h ∧
      (dec8 v).r = (sub8 m v 1 false).r ∧ (dec8 v).h = (sub8 m v 1 false).h

/-- 30_encoding.md R99, R100, and Resolve of R98; which opcodes set the immediate flag is in the statements about them. -/
def Obligations.OperandResolver : Prop :=
  (∀ (op : Byte) (off : FieldOffset) (s : State),
    resolve true op off s = (fetchByte s).bind fun b s1 => .ok (.imm b) s1) ∧
  (∀ (op : Byte) (off : FieldOffset) (s : State), off.code op = 6 → resolve false op off s = .ok (.ind s.hl) s) ∧
  (∀ (op : Byte) (off : FieldOffset) (s : State) (r : Reg8), r.code = off.code op → resolve false op off s = .ok (.reg r) s) ∧
  (∀ op : Byte, extractBits op 0 3 = .ok ((FieldOffset.low.code op).setWidth 8) ∧
    extractBits op 3 3 = .ok ((FieldOffset.high.code op).setWidth 8)) ∧
  (∀ (r : Reg8) (a : Word) (b : Byte) (s : State), readOperand (.reg r) s = .ok (s.reg r) s ∧
    readOperand (.ind a) s = memRead a s ∧ readOperand (.imm b) s = .ok b s) ∧
  (∀ (r : Reg8) (a : Word) (b v : Byte) (s : State), writeOperand (.reg r) v s = .ok () (s.setReg r v) ∧
    writeOperand (.ind a) v s = memWrite a v s ∧ writeOperand (.imm b) v s = .ok () s)

/-- 20_memory.md R52, row by row (an address is in exactly one row, by the bounds). -/
def Obligations.AddressDecodeTable : Prop :=
  ∀ (m : MemoryMap) (w : Word), ∃ a, a = w.toNat ∧ regionOf a ≠ .outside ∧
    (a ≤ 0x3FFF → m.cellOf a = some (.rom, a)) ∧
    (0x4000 ≤ a ∧ a ≤ 0x7FFF → m.cellOf a = some (.rom, m.romBank * 16384 + (a - 0x4000))) ∧
    (0x8000 ≤ a ∧ a ≤ 0x9FFF → m.cellOf a = some (.vram, m.vramBank * 8192 + (a - 0x8000))) ∧
    (0xA000 ≤ a ∧ a ≤ 0xBFFF → m.cellOf a = some (.eram, m.eramBank * 8192 + (a - 0xA000))) ∧
    (0xC000 ≤ a ∧ a ≤ 0xCFFF → m.cellOf a = some (.wram, a - 0xC000)) ∧
    (0xD000 ≤ a ∧ a ≤ 0xDFFF → m.cellOf a = some (.wram, m.wramBank * 4096 + (a - 0xD000))) ∧
    (0xE000 ≤ a ∧ a ≤ 0xEFFF → m.cellOf a = some (.wram, a - 0xE000)) ∧
    (0xF000 ≤ a ∧ a ≤ 0xFDFF → m.cellOf a = some (.wram, m.wramBank * 4096 + (a - 0xF000))) ∧
    (0xFE00 ≤ a ∧ a ≤ 0xFE9F → m.cellOf a = some (.oam, a - 0xFE00)) ∧
    (0xFEA0 ≤ a ∧ a ≤ 0xFEFF → m.cellOf a = none) ∧
    (0xFF00 ≤ a ∧ a ≤ 0xFF7F → m.cellOf a = some (.io, a - 0xFF00)) ∧
    (0xFF80 ≤ a ∧ a ≤ 0xFFFE → m.cellOf a = some (.hram, a - 0xFF80)) ∧
    (a = 0xFFFF → m.cellOf a = some (.ie, 0)) ∧
    (∀ v, a ≤ 0x7FFF → m.write w v = .error (.readOnlyWrite w)) ∧
    (0xFEA0 ≤ a ∧ a ≤ 0xFEFF → m.read w = .ok 0x00 ∧ ∀ v, m.write w v = .error (.prohibitedRegion w)) ∧
    (∀ st i, m.cellOf a = some (st, i) → i < m.size st →
      m.read w = .ok ((m.store st).get i) ∧
      (0x8000 ≤ a → ∀ v, m.write w v = .ok (m.setStore st ((m.store st).set i v))))

/-- 20_memory.md R54. -/
def Obligations.MemReadRule : Prop :=
  ∀ (s : State) (w : Word),
    (0xFEA0 ≤ w.toNat ∧ w.toNat ≤ 0xFEFF → memRead w s = .ok 0x00 { s with mcycles := s.mcycles + 1 }) ∧
    (∀ st i, s.mem.cellOf w.toNat = some (st, i) → i < s.mem.size st →
      memRead w s = .ok ((s.mem.store st).get i) { s with mcycles := s.mcycles + 1 }) ∧
    (∀ st i, st = .rom ∨ st = .eram → s.mem.cellOf w.toNat = some (st, i) → ¬ i < s.mem.size st →
      memRead w s = .raised { s with mcycles := s.mcycles + 1, status := .faulted (.outOfBounds w) })

/-- 20_memory.md R55. -/
def Obligations.MemWriteRule : Prop :=
  ∀ (s : State) (w : Word) (v : Byte),
    (w.toNat ≤ 0x7FFF →
      memWrite w v s = .raised { s with mcycles := s.mcycles + 1, status := .faulted (.readOnlyWrite w) }) ∧
    (0xFEA0 ≤ w.toNat ∧ w.toNat ≤ 0xFEFF →
      memWrite w v s = .raised { s with mcycles := s.mcycles + 1, status := .faulted (.prohibitedRegion w) }) ∧
    (∀ st i, s.mem.cellOf w.toNat = some (st, i) → 0x8000 ≤ w.toNat → i < s.mem.size st →
      memWrite w v s = .ok () { s with
        mcycles := s.mcycles + 1
        mem := s.mem.setStore st ((s.mem.store st).set i v) }) ∧
    (∀ i, s.mem.cellOf w.toNat = some (.eram, i) → ¬ i < s.mem.size .eram →
      memWrite w v s = .raised { s with mcycles := s.mcycles + 1, status := .faulted (.outOfBounds w) })

/-- 20_memory.md sections 3 and 6. -/
def Obligations.ReadAfterWrite : Prop :=
  ∀ (m m' : MemoryMap) (a : Word) (v : Byte), m.wf = true → m.write a v = .ok m' →
    m'.wf = true ∧
    (∀ x : Word, m.cellOf x.toNat = m.cellOf a.toNat → m'.read x = .ok v) ∧
    (∀ x : Word, m.cellOf x.toNat ≠ m.cellOf a.toNat → m'.read x = m.read x)

/-- Work RAM and its mirrors; the offsets are the spec's decision D25. -/
def Obligations.MirrorWindowsReadTheSameCells : Prop :=
  ∀ (m : MemoryMap) (k : Nat),
    (k ≤ 0xFFF →
      m.cellOf (0xE000 + k) = m.cellOf (0xC000 + k) ∧
      (∀ v, m.write (BitVec.ofNat 16 (0xE000 + k)) v = m.write (BitVec.ofNat 16 (0xC000 + k)) v) ∧
      m.read (BitVec.ofNat 16 (0xE000 + k)) = m.read (BitVec.ofNat 16 (0xC000 + k))) ∧
    (k ≤ 0xDFF → m.wramBank < 8 →
      m.cellOf (0xF000 + k) = m.cellOf (0xD000 + k) ∧
      (∀ v, m.write (BitVec.ofNat 16 (0xF000 + k)) v = m.write (BitVec.ofNat 16 (0xD000 + k)) v) ∧
      m.read (BitVec.ofNat 16 (0xF000 + k)) = m.read (BitVec.ofNat 16 (0xD000 + k)))

/-- 20_memory.md R59 for the reads and writes; that an opcode fetched there is NOP is a sentence R59 marks as the spec's own
inference from R59 and 40_control.md R120. -/
def Obligations.ProhibitedRegionReadsZeroRunsNop : Prop :=
  ∀ (s : State) (w : Word) (v : Byte), 0xFEA0 ≤ w.toNat ∧ w.toNat ≤ 0xFEFF →
    memRead w s = .ok 0x00 { s with mcycles := s.mcycles + 1 } ∧
    memWrite w v s = .raised { s with mcycles := s.mcycles + 1, status := .faulted (.prohibitedRegion w) } ∧
    s.mem.cellOf w.toNat = none ∧
    (s.status = .running → s.pc = w → step s = .next { s with pc := s.pc + 1, mcycles := s.mcycles + 1 })

/-- Absent bytes are the spec's decisions D7 and D8. -/
def Obligations.ReadableAddresses : Prop :=
  ∀ (m : MemoryMap) (w : Word), m.banksFixed = true →
    ((∃ v, m.read w = .ok v) ↔
      (w.toNat ≤ 0x7FFF → w.toNat < m.romLength) ∧ (0xA000 ≤ w.toNat ∧ w.toNat ≤ 0xBFFF → 2 ≤ m.mEram)) ∧
    (¬ (∃ v, m.read w = .ok v) → m.read w = .error (.outOfBounds w)) ∧
    (0xA000 ≤ w.toNat ∧ w.toNat ≤ 0xBFFF → m.mEram ≤ 1 →
      m.read w = .error (.outOfBounds w) ∧ ∀ v, m.write w v = .error (.outOfBounds w))

/-- 10_state.md section 8 and 70_reset_and_hazards.md section 1. The inputs of reset are the model's: log entries 3 to 6. -/
def Obligations.ConstructionValues : Prop :=
  (∀ k : Construction,
    (State.construct k).a = k.preset.a ∧ (State.construct k).b = k.preset.b ∧ (State.construct k).c = k.preset.c ∧
    (State.construct k).d = k.preset.d ∧ (State.construct k).e = k.preset.e ∧ (State.construct k).f = k.preset.f ∧
    (State.construct k).h = k.preset.h ∧ (State.construct k).l = k.preset.l ∧
    (State.construct k).sp = 0xFFFE ∧ (State.construct k).pc = 0x0100 ∧ (State.construct k).mcycles = 0 ∧
    (State.construct k).status = .running ∧ (State.construct k).unsupportedSeen = none ∧
    (State.construct k).config = k.config ∧ (State.construct k).mem.romLength = k.romImage.length ∧
    (State.construct k).mem.mEram = k.mEram ∧ (State.construct k).mem.romBank = 1 ∧ (State.construct k).mem.vramBank = 0 ∧
    (State.construct k).mem.eramBank = 1 ∧ (State.construct k).mem.wramBank = 1) ∧
  State.reset = State.construct
    { preset := { a := 0x01, f := 0xB0, b := 0x00, c := 0x13, d := 0x00, e := 0xD8, h := 0x01, l := 0x4D }
      romImage := []
      mEram := 0
      eramInit := []
      ieInit := 0x00
      config := { unsupportedPolicy := .marker, opc76Policy := .documentLoad, carryInMode := .separate } }

/-- 20_memory.md section 3; absent bytes and the two parameters are the spec's decisions D7, D8, D9. That a byte past the end of
ERAM_INIT reads 0x00 is the model's choice: log entry 6 (DESIGN CHOICE). -/
def Obligations.ConstructionMemoryContents : Prop :=
  ∀ (k : Construction) (w : Word),
    (w.toNat ≤ 0x7FFF → ∀ h : w.toNat < k.romImage.length, (State.construct k).mem.read w = .ok (k.romImage[w.toNat]'h)) ∧
    (w.toNat ≤ 0x7FFF → k.romImage.length ≤ w.toNat → (State.construct k).mem.read w = .error (.outOfBounds w)) ∧
    (0xA000 ≤ w.toNat ∧ w.toNat ≤ 0xBFFF → 2 ≤ k.mEram →
      (State.construct k).mem.read w = .ok (k.eramInit.getD (8192 + (w.toNat - 0xA000)) 0x00)) ∧
    (0xA000 ≤ w.toNat ∧ w.toNat ≤ 0xBFFF → k.mEram ≤ 1 → (State.construct k).mem.read w = .error (.outOfBounds w)) ∧
    ((0x8000 ≤ w.toNat ∧ w.toNat ≤ 0x9FFF) ∨ (0xC000 ≤ w.toNat ∧ w.toNat ≤ 0xFFFE) →
      (State.construct k).mem.read w = .ok 0x00) ∧
    (w = 0xFFFF → (State.construct k).mem.read w = .ok k.ieInit)

/-- 70_reset_and_hazards.md section 2. An image without that byte gives 0: log entry 6. -/
def Obligations.HeaderSuppliesExternalRamBanks : Prop :=
  eramBanksOfHeader 0 = 0 ∧ eramBanksOfHeader 1 = 1 ∧ eramBanksOfHeader 3 = 4 ∧ eramBanksOfHeader 4 = 16 ∧
  eramBanksOfHeader 5 = 8 ∧
  (∀ b : Byte, b ≠ 0 ∧ b ≠ 1 ∧ b ≠ 3 ∧ b ≠ 4 ∧ b ≠ 5 → eramBanksOfHeader b = 0) ∧
  (∀ (k : Construction) (h : 0x0149 < k.romImage.length),
    withHeaderBanks k = { k with mEram := eramBanksOfHeader (k.romImage[0x0149]'h) })

/-- The formats of 30_encoding.md section 1 and the rows of its decode table. -/
def Obligations.SampleWordsDecode : Prop :=
  Encodes [0b00_000_000] .nop ∧
  Encodes [0b11000011, 0x34, 0x12] (.jp 0x1234) ∧
  Encodes [0b110_10_010, 0x00, 0x02] (.jpNC 0x0200) ∧
  Encodes [0b00011000, 0xFE] (.jr 0xFE) ∧
  Encodes [0b001_01_000, 0xFC] (.jrZ 0xFC) ∧
  Encodes [0b11101001] .jpHL ∧
  Encodes [0b01_000_101] .ldBL ∧ Encodes [0b01_100_110] .ldHAtHL ∧ Encodes [0b01_110_111] .ldAtHLA ∧
  Encodes [0b01_110_110] .ldAtHLAtHL ∧
  Encodes [0b10_010_001] .subAC ∧ Encodes [0b10_001_110] .adcAAtHL ∧ Encodes [0b11_111_110, 0x30] (.cpAImm 0x30) ∧
  Encodes [0b00_011_100] .incE ∧ Encodes [0b00_110_101] .decAtHL ∧
  Encodes [0b11010011] (.illegal 0xD3) ∧ Encodes [0b11001011] (.unsupported 0xCB)

/-- The encoder is written from the bit patterns of the formats, the decoder from the 256-row table. -/
def Obligations.DecodeOfEncodeIsIdentity : Prop :=
  ∀ (i : Instr) (rest : List Byte), i.wf = true → decode (encode i ++ rest) = .ok (i, rest)

/-- Every opcode byte belongs to exactly one group. -/
def Obligations.EncodeOfDecodeIsIdentity : Prop :=
  (∀ (bytes rest : List Byte) (i : Instr), decode bytes = .ok (i, rest) → i.wf = true ∧ encode i ++ rest = bytes) ∧
  (∀ (op b1 b2 : Byte) (rest : List Byte), ∃ i rest', decode (op :: b1 :: b2 :: rest) = .ok (i, rest'))

/-- 30_encoding.md R103. -/
def Obligations.IllegalSetIsExact : Prop :=
  (∀ (op o : Byte) (rest rest' : List Byte),
    decode (op :: rest) = .ok (.illegal o, rest') ↔ op ∈ ([0xD3, 0xDB, 0xDD, 0xE3, 0xE4, 0xEB, 0xEC, 0xED, 0xF4, 0xFC, 0xFD] : List Byte) ∧ o = op ∧ rest' = rest) ∧
  (∀ (op : Byte) (s : State), ∃ t pc0, exec (.illegal op) s = .next t ∧ t.status = .faulted (.illegalOpcode pc0 op))

/-- The set and the lengths of 30_encoding.md section 4. -/
def Obligations.UnsupportedSetAndLengths : Prop :=
  (∀ (op o : Byte) (rest rest' : List Byte),
    decode (op :: rest) = .ok (.unsupported o, rest') ↔ op ∈ unsupportedOpcodes ∧ o = op ∧ rest' = rest) ∧
  unsupportedOpcodes.length = 81 ∧ unsupportedOpcodes.Nodup ∧
  (∀ (op : Byte) (rest rest' : List Byte) (i : Instr), decode (op :: rest) = .ok (i, rest') →
    rest = rest.take
      (if op ∈ ([0xC2, 0xC3, 0xCA, 0xD2, 0xDA] : List Byte) then 2
      else if op ∈ ([0x18, 0x20, 0x28, 0x30, 0x38, 0xC6, 0xCE, 0xD6, 0xDE, 0xE6, 0xEE, 0xF6, 0xFE] : List Byte) then 1
      else 0) ++ rest' ∧
    (encode i).length =
      (if op ∈ ([0xC2, 0xC3, 0xCA, 0xD2, 0xDA] : List Byte) then 3
      else if op ∈ ([0x18, 0x20, 0x28, 0x30, 0x38, 0xC6, 0xCE, 0xD6, 0xDE, 0xE6, 0xEE, 0xF6, 0xFE] : List Byte) then 2
      else 1))

/-- The step; that the immediates are fetched before the meaning begins is log entry 10. -/
def Obligations.StepRunsTheDecodedInstruction : Prop :=
  ∀ (s : State) (bytes : List Byte) (i : Instr), Ready s bytes → Encodes bytes i →
    step s = exec i (advanced s (BitVec.ofNat 16 bytes.length) bytes.length)

/-- 60_exceptions.md R234 and 10_state.md section 6 make both statuses terminal; that step stops there with what they record is log entry 1. -/
def Obligations.NoStepFromATerminalStatus : Prop :=
  (∀ (s : State) (x : Fault), s.status = .faulted x → step s = .fault x) ∧
  (∀ (s : State) (pc : Word) (op : Byte), s.status = .refused pc op → step s = .refused (.unsupportedOpcode pc op)) ∧
  (∀ s : State, s.status = .running → ∃ t, step s = .next t)

/-- FetchByte; that PC does not advance on a failed read is the spec's decision D12. -/
def Obligations.FetchFaultsKeepPcOnTheMissingByte : Prop :=
  (∀ s x, s.status = .running → s.mem.read s.pc = .error x →
    x = .outOfBounds s.pc ∧ step s = .next { advanced s 0 1 with status := .faulted x }) ∧
  (∀ op ∈ ([0xC2, 0xC3, 0xCA, 0xD2, 0xDA, 0x18, 0x20, 0x28, 0x30, 0x38] : List Byte), SecondByteFault op) ∧
  (∀ op ∈ ([0xC6, 0xCE, 0xD6, 0xDE, 0xE6, 0xEE, 0xF6, 0xFE] : List Byte), SecondByteFault op) ∧
  (∀ op ∈ ([0xC2, 0xC3, 0xCA, 0xD2, 0xDA] : List Byte), ThirdByteFault op)

/-- withFetchWord stands for the loading of a ROM image: log entry 5. -/
def Obligations.LoadedWordRunsFirstAfterReset : Prop :=
  ∀ nbits w : Nat, ∃ i, decodeTableWord nbits w = some i ∧
    step (State.reset.withFetchWord nbits w) =
      exec i (advanced (State.reset.withFetchWord nbits w) (BitVec.ofNat 16 (encode i).length) (encode i).length)

/-- Two independent readings of the decode table and of the instruction groups. -/
def Obligations.StepAgreesWithTheFieldEngine : Prop :=
  ∀ s : State, s.status = .running → step s = (rawStep s).outcome

/-- The base of StepKeepsTheInvariant. F of reset is PRESUMED, log entry 4. -/
def Obligations.ResetMeetsTheInvariant : Prop :=
  State.reset.Inv

/-- The premise on F is the spec's own condition on RESET_PRESET. -/
def Obligations.ConstructionMeetsTheInvariant : Prop :=
  ∀ k : Construction, k.preset.valid = true → (State.construct k).Inv

/-- F[3:0] = 0 always holds; the bank indices are constant (D15); stores are never resized. -/
def Obligations.StepKeepsTheInvariant : Prop :=
  ∀ s t : State, s.Inv → step s = .next t → t.Inv

/-- SP is never used; ROM is read-only; bank indices are constant (D15); parameters are fixed. -/
def Obligations.StepNeverChangesFixedState : Prop :=
  ∀ s t : State, step s = .next t →
    t.sp = s.sp ∧ t.config = s.config ∧ t.mem.rom = s.mem.rom ∧ t.mem.romLength = s.mem.romLength ∧
    t.mem.mEram = s.mem.mEram ∧ t.mem.romBank = s.mem.romBank ∧ t.mem.vramBank = s.mem.vramBank ∧
    t.mem.eramBank = s.mem.eramBank ∧ t.mem.wramBank = s.mem.wramBank ∧
    ∀ w : Word, w.toNat ≤ 0x7FFF → t.mem.read w = s.mem.read w

/-- The marker is the spec's decision D1. -/
def Obligations.MarkerRecordsTheFirstUnsupportedOpcode : Prop :=
  ∀ s t : State, step s = .next t →
    (∀ x, s.unsupportedSeen = some x → t.unsupportedSeen = some x) ∧
    (t.unsupportedSeen = s.unsupportedSeen ∨
      ∃ op, s.unsupportedSeen = none ∧ s.config.unsupportedPolicy = .marker ∧ s.mem.read s.pc = .ok op ∧
        t.unsupportedSeen = some (s.pc, op) ∧
        (op ∈ unsupportedOpcodes ∨ op = 0x76 ∧ s.config.opc76Policy = .unsupported))

/-- The clock is an unbounded natural number by the spec's decision D11. -/
def Obligations.ClockAdvancesByOneToFour : Prop :=
  ∀ s t : State, step s = .next t →
    s.mcycles + 1 ≤ t.mcycles ∧ t.mcycles ≤ s.mcycles + 4 ∧
    t.tcycles = s.tcycles + 4 * (t.mcycles - s.mcycles)

/-- The cycle table of 70_reset_and_hazards.md section 4 (derived there from the instruction rules); the two readings of 0x76 are
the spec's decision D2. -/
def Obligations.CycleTable : Prop :=
  ∀ (s t : State) (i : Instr), i.wf = true → Ready s (encode i) → step s = .next t →
    t.status = .running ∨ isGap i.form = true → t.mcycles = s.mcycles + cycles i.form s

/-- 70_reset_and_hazards.md R268. -/
def Obligations.ClockIsAnOutputOnly : Prop :=
  ∀ (s : State) (n : Nat), step { s with mcycles := s.mcycles + n } = laterBy n (step s)

/-- 60_exceptions.md section 1; that a failed fetch raises is the spec's decision D6, the recorded information its decision D13. -/
def Obligations.StepRaisesOnlyTheFourReachableErrors : Prop :=
  ∀ (s t : State) (x : Fault), step s = .next t → t.status = .faulted x →
    (∃ a, x = .outOfBounds a ∧ s.mem.read a = .error (.outOfBounds a) ∧
      (a = s.pc ∨ a = s.pc + 1 ∨ a = s.pc + 2 ∨ a = s.hl)) ∨
    (x = .readOnlyWrite s.hl ∧ s.hl.toNat ≤ 0x7FFF ∧ ∃ op ∈ storingOpcodes, s.mem.read s.pc = .ok op) ∨
    (x = .prohibitedRegion s.hl ∧ 0xFEA0 ≤ s.hl.toNat ∧ s.hl.toNat ≤ 0xFEFF ∧
      ∃ op ∈ storingOpcodes, s.mem.read s.pc = .ok op) ∨
    (∃ op ∈ ([0xD3, 0xDB, 0xDD, 0xE3, 0xE4, 0xEB, 0xEC, 0xED, 0xF4, 0xFC, 0xFD] : List Byte), x = .illegalOpcode s.pc op ∧ s.mem.read s.pc = .ok op)

/-- The table of readers and writers (derived in the spec) for each form; HL is the one address an instruction stores to. -/
def Obligations.FrameOfEveryInstruction : Prop :=
  ∀ (i : Instr) (s t : State), exec i s = .next t →
    (∀ r, destination i.form ≠ some r → t.reg r = s.reg r) ∧
    (writesFlags i.form = false → t.f = s.f) ∧
    (∀ x, i.form = .inc x ∨ i.form = .dec x → t.f.getLsbD 4 = s.f.getLsbD 4) ∧
    t.sp = s.sp ∧ t.config = s.config ∧
    (jumps i.form = false → t.pc = s.pc) ∧
    (mayMark i.form = false → t.unsupportedSeen = s.unsupportedSeen) ∧
    (storesAtHl i.form = false → t.mem = s.mem) ∧
    (∀ a, a = s.hl → ∀ w : Word, s.mem.cellOf w.toNat ≠ s.mem.cellOf a.toNat → t.mem.read w = s.mem.read w)

/-- NOP; that a failed opcode fetch raises and does not advance PC is the spec's decisions D6 and D12 (log entry 13). -/
def Obligations.NopOnlyFetches : Prop :=
  Encodes [0x00] .nop ∧ (∀ s, exec .nop s = .next s) ∧ (∀ s, Ready s [0x00] → step s = .next (advanced s 1 1)) ∧
  (∀ s x, s.status = .running → s.mem.read s.pc = .error x → step s = .next { advanced s 0 1 with status := .faulted x })

/-- JP a16; that a failed fetch raises with PC left on the missing byte is the spec's decisions D6 and D12 (log entry 13). -/
def Obligations.JumpAbsolute : Prop :=
  (∀ lo hi, Encodes [0xC3, lo, hi] (.jp (compose16 lo hi))) ∧
  (∀ target s, exec (.jp target) s = .next { s with pc := target, mcycles := s.mcycles + 1 }) ∧
  (∀ s lo hi, Ready s [0xC3, lo, hi] →
    step s = .next { s with pc := compose16 lo hi, mcycles := s.mcycles + 4 }) ∧
  SecondByteFault 0xC3 ∧ ThirdByteFault 0xC3

/-- JP cc,a16, each condition written out as a bit of F; that a failed fetch raises with PC left on the missing byte is the spec's
decisions D6 and D12 (log entry 13). -/
def Obligations.JumpAbsoluteConditional : Prop :=
  ∀ op mk cc, (op, mk, cc) ∈ jpCondRows →
    (∀ lo hi, Encodes [op, lo, hi] (mk (compose16 lo hi))) ∧
    (∀ s : State, s.cond cc =
      match cc with
      | .nz => !s.f.getLsbD 7
      | .z => s.f.getLsbD 7
      | .nc => !s.f.getLsbD 4
      | .c => s.f.getLsbD 4) ∧
    (∀ target s, s.cond cc = true → exec (mk target) s = .next { s with pc := target, mcycles := s.mcycles + 1 }) ∧
    (∀ target s, s.cond cc = false → exec (mk target) s = .next s) ∧
    (∀ s lo hi, Ready s [op, lo, hi] → s.cond cc = true →
      step s = .next { s with pc := compose16 lo hi, mcycles := s.mcycles + 4 }) ∧
    (∀ s lo hi, Ready s [op, lo, hi] → s.cond cc = false → step s = .next (advanced s 3 3)) ∧
    SecondByteFault op ∧ ThirdByteFault op

/-- JR e8; the base of the displacement is the spec's decision D4; that a failed fetch raises with PC left on the missing
displacement is its decisions D6 and D12 (log entry 13). -/
def Obligations.JumpRelative : Prop :=
  (∀ e, Encodes [0x18, e] (.jr e)) ∧
  (∀ e s, exec (.jr e) s = .next { s with pc := s.pc + e.signExtend 16, mcycles := s.mcycles + 1 }) ∧
  (∀ s e, Ready s [0x18, e] → step s = .next { s with pc := s.pc + 2 + e.signExtend 16, mcycles := s.mcycles + 3 }) ∧
  SecondByteFault 0x18

/-- JR cc,e8; the base of the displacement is the spec's decision D4; that a failed fetch raises with PC left on the missing
displacement is its decisions D6 and D12 (log entry 13). -/
def Obligations.JumpRelativeConditional : Prop :=
  ∀ op mk cc, (op, mk, cc) ∈ jrCondRows →
    (∀ e, Encodes [op, e] (mk e)) ∧
    (∀ e s, s.cond cc = true →
      exec (mk e) s = .next { s with pc := s.pc + e.signExtend 16, mcycles := s.mcycles + 1 }) ∧
    (∀ e s, s.cond cc = false → exec (mk e) s = .next s) ∧
    (∀ s e, Ready s [op, e] → s.cond cc = true →
      step s = .next { s with pc := s.pc + 2 + e.signExtend 16, mcycles := s.mcycles + 3 }) ∧
    (∀ s e, Ready s [op, e] → s.cond cc = false → step s = .next (advanced s 2 2)) ∧
    SecondByteFault op

/-- 40_control.md R125. -/
def Obligations.JumpToHl : Prop :=
  Encodes [0xE9] .jpHL ∧ (∀ s, exec .jpHL s = .next { s with pc := compose16 s.l s.h }) ∧
  (∀ s, Ready s [0xE9] → step s = .next { s with pc := compose16 s.l s.h, mcycles := s.mcycles + 1 })

/-- 41_load.md R140. -/
def Obligations.LoadRegisterFromRegister : Prop :=
  ∀ op i dst r, (op, i, dst, r) ∈ ldRegRegRows →
    Encodes [op] i ∧ op = 0b01#2 ++ dst.code ++ r.code ∧
    (∀ s, exec i s = .next (s.setReg dst (s.reg r))) ∧
    (∀ s, Ready s [op] → step s = .next ((advanced s 1 1).setReg dst (s.reg r))) ∧
    (dst = r → ∀ s, exec i s = .next s)

/-- 41_load.md R141. The invariant rules out bank indices no run has. -/
def Obligations.LoadRegisterFromMemory : Prop :=
  (∀ s : State, s.Inv → ((∃ v, s.mem.read s.hl = .ok v) ↔ Readable s s.hl)) ∧
  (∀ s : State, 0xFEA0 ≤ s.hl.toNat ∧ s.hl.toNat ≤ 0xFEFF → s.mem.read s.hl = .ok 0x00) ∧
  ∀ op i dst, (op, i, dst) ∈ ldRegHlRows →
    Encodes [op] i ∧
    (∀ s v, s.mem.read s.hl = .ok v → exec i s = .next ((advanced s 0 1).setReg dst v)) ∧
    (∀ s v, Ready s [op] → s.mem.read s.hl = .ok v → step s = .next ((advanced s 1 2).setReg dst v)) ∧
    (∀ s x, s.mem.read s.hl = .error x → x = .outOfBounds s.hl ∧
      exec i s = .next { advanced s 0 1 with status := .faulted x } ∧
      (Ready s [op] → step s = .next { advanced s 1 2 with status := .faulted x }))

/-- 41_load.md R142. The invariant rules out bank indices no run has. -/
def Obligations.StoreRegisterToMemory : Prop :=
  ∀ op i r, (op, i, r) ∈ ldHlRegRows →
    Encodes [op] i ∧
    (∀ s, s.Inv → Writable s s.hl → ∃ m, StoredAt s.mem s.hl (s.reg r) m ∧
      exec i s = .next { advanced s 0 1 with mem := m } ∧
      (Ready s [op] → step s = .next { advanced s 1 2 with mem := m })) ∧
    (∀ s x,
      s.hl.toNat ≤ 0x7FFF ∧ x = .readOnlyWrite s.hl ∨
      (0xFEA0 ≤ s.hl.toNat ∧ s.hl.toNat ≤ 0xFEFF) ∧ x = .prohibitedRegion s.hl ∨
      (0xA000 ≤ s.hl.toNat ∧ s.hl.toNat ≤ 0xBFFF) ∧ s.mem.mEram ≤ s.mem.eramBank ∧ x = .outOfBounds s.hl →
      exec i s = .next { advanced s 0 1 with status := .faulted x } ∧
      (Ready s [op] → step s = .next { advanced s 1 2 with status := .faulted x }))

/-- The parameter OPC76_POLICY is the spec's decision D2, UNSUPPORTED_POLICY its decision D1, what an error records its decision
D13; that the decoder reads 0x76 alike under both is log entry 11. -/
def Obligations.Opcode76FollowsItsPolicy : Prop :=
  Encodes [0x76] .ldAtHLAtHL ∧
  (∀ s, s.config.opc76Policy = .documentLoad → s.Inv → Writable s s.hl →
    ∃ v m, s.mem.read s.hl = .ok v ∧ StoredAt s.mem s.hl v m ∧ (∀ w : Word, m.read w = s.mem.read w) ∧
      exec .ldAtHLAtHL s = .next { advanced s 0 2 with mem := m } ∧
      (Ready s [0x76] → step s = .next { advanced s 1 3 with mem := m })) ∧
  (∀ s x, s.config.opc76Policy = .documentLoad → s.mem.read s.hl = .error x → x = .outOfBounds s.hl ∧
    exec .ldAtHLAtHL s = .next { advanced s 0 1 with status := .faulted x } ∧
    (Ready s [0x76] → step s = .next { advanced s 1 2 with status := .faulted x })) ∧
  (∀ s v x, s.config.opc76Policy = .documentLoad → s.mem.read s.hl = .ok v →
    s.hl.toNat ≤ 0x7FFF ∧ x = .readOnlyWrite s.hl ∨
    (0xFEA0 ≤ s.hl.toNat ∧ s.hl.toNat ≤ 0xFEFF) ∧ x = .prohibitedRegion s.hl →
    exec .ldAtHLAtHL s = .next { advanced s 0 2 with status := .faulted x } ∧
    (Ready s [0x76] → step s = .next { advanced s 1 3 with status := .faulted x })) ∧
  (∀ s, s.config.opc76Policy = .unsupported →
    exec .ldAtHLAtHL s = exec (.unsupported 0x76) s ∧
    (s.config.unsupportedPolicy = .marker →
      exec .ldAtHLAtHL s = .next { s with unsupportedSeen := some (s.unsupportedSeen.getD (s.pc - 1, 0x76)) } ∧
      (Ready s [0x76] →
        step s = .next { advanced s 1 1 with unsupportedSeen := some (s.unsupportedSeen.getD (s.pc, 0x76)) })) ∧
    (s.config.unsupportedPolicy = .refuse →
      exec .ldAtHLAtHL s = .next { s with status := .refused (s.pc - 1) 0x76 } ∧
      (Ready s [0x76] → step s = .next { advanced s 1 1 with status := .refused s.pc 0x76 })))

/-- 42_alu.md R163, and the same result for [HL] and n8. -/
def Obligations.AddWritesSumAndFlags : Prop :=
  AluForms addRows 0x86 .addAAtHL 0xC6 .addAImm addResult

/-- ADC; the modes are the spec's decision D3, the split from ADD its decision D24. -/
def Obligations.AdcAddsTheCarryUnderTheMode : Prop :=
  AluForms adcRows 0x8E .adcAAtHL 0xCE .adcAImm adcResult

/-- 42_alu.md R169, and the same result for [HL] and n8. -/
def Obligations.SubWritesDifferenceAndFlags : Prop :=
  AluForms subRows 0x96 .subAAtHL 0xD6 .subAImm subResult

/-- SBC; the modes are the spec's decision D3, the split from SUB its decision D24. -/
def Obligations.SbcSubtractsTheBorrowUnderTheMode : Prop :=
  AluForms sbcRows 0x9E .sbcAAtHL 0xDE .sbcAImm sbcResult

/-- 42_alu.md R175, and the same result for [HL] and n8. -/
def Obligations.AndSetsHalfCarry : Prop :=
  AluForms andRows 0xA6 .andAAtHL 0xE6 .andAImm andResult

/-- 42_alu.md R178, and the same result for [HL] and n8. -/
def Obligations.XorClearsOtherFlags : Prop :=
  AluForms xorRows 0xAE .xorAAtHL 0xEE .xorAImm xorResult

/-- 42_alu.md R181, and the same result for [HL] and n8. -/
def Obligations.OrClearsOtherFlags : Prop :=
  AluForms orRows 0xB6 .orAAtHL 0xF6 .orAImm orResult

/-- 42_alu.md R184, and the same result for [HL] and n8. -/
def Obligations.CompareKeepsA : Prop :=
  AluForms cpRows 0xBE .cpAAtHL 0xFE .cpAImm cpResult

/-- The common sequence; that A and F are written after the read is the spec's decision D12. -/
def Obligations.AluOperandFaultWritesNothing : Prop :=
  ∀ op i, (op, i) ∈ aluHlRows →
    Encodes [op] i ∧
    (∀ s x, s.mem.read s.hl = .error x → x = .outOfBounds s.hl ∧
      exec i s = .next { advanced s 0 1 with status := .faulted x } ∧
      (Ready s [op] → step s = .next { advanced s 1 2 with status := .faulted x }))

/-- 42_alu.md R188, R190. -/
def Obligations.IncDecRegister : Prop :=
  (∀ op i r, (op, i, r) ∈ incRows →
    Encodes [op] i ∧
    (∀ s, exec i s = .next { s.setReg r (s.reg r + 1) with
      f := countFlags s (s.reg r + 1) false (decide ((s.reg r).toNat % 16 = 0xF)) }) ∧
    (∀ s, Ready s [op] → step s = .next { (advanced s 1 1).setReg r (s.reg r + 1) with
      f := countFlags s (s.reg r + 1) false (decide ((s.reg r).toNat % 16 = 0xF)) })) ∧
  (∀ op i r, (op, i, r) ∈ decRows →
    Encodes [op] i ∧
    (∀ s, exec i s = .next { s.setReg r (s.reg r - 1) with
      f := countFlags s (s.reg r - 1) true (decide ((s.reg r).toNat % 16 = 0)) }) ∧
    (∀ s, Ready s [op] → step s = .next { (advanced s 1 1).setReg r (s.reg r - 1) with
      f := countFlags s (s.reg r - 1) true (decide ((s.reg r).toNat % 16 = 0)) }))

/-- INC [HL] and DEC [HL]; that F is written after the memory write is the spec's decision D12. -/
def Obligations.IncDecMemory : Prop :=
  CountAtHl 0x34 .incAtHL false (fun v => v + 1) (fun v => decide (v.toNat % 16 = 0xF)) ∧
  CountAtHl 0x35 .decAtHL true (fun v => v - 1) (fun v => decide (v.toNat % 16 = 0)) ∧
  (∀ i, i = .incAtHL ∨ i = .decAtHL →
    (∀ s x, s.mem.read s.hl = .error x →
      x = .outOfBounds s.hl ∧ exec i s = .next { advanced s 0 1 with status := .faulted x }) ∧
    (∀ s v x, s.mem.read s.hl = .ok v →
      s.hl.toNat ≤ 0x7FFF ∧ x = .readOnlyWrite s.hl ∨
      (0xFEA0 ≤ s.hl.toNat ∧ s.hl.toNat ≤ 0xFEFF) ∧ x = .prohibitedRegion s.hl →
      exec i s = .next { advanced s 0 2 with status := .faulted x }))

/-- Illegal opcode; the recorded information is the spec's decision D13. -/
def Obligations.IllegalOpcodeEndsTheRun : Prop :=
  ∀ op ∈ ([0xD3, 0xDB, 0xDD, 0xE3, 0xE4, 0xEB, 0xEC, 0xED, 0xF4, 0xFC, 0xFD] : List Byte),
    Encodes [op] (.illegal op) ∧
    (∀ s, exec (.illegal op) s = .next { s with status := .faulted (.illegalOpcode (s.pc - 1) op) }) ∧
    (∀ s, Ready s [op] →
      step s = .next { advanced s 1 1 with status := .faulted (.illegalOpcode s.pc op) } ∧
      Sys2Proof.core.run 2 s = .fault (.illegalOpcode s.pc op))

/-- Unsupported opcode; the policies are the spec's decision D1, the length its decision D21. -/
def Obligations.UnsupportedOpcodeUnderBothPolicies : Prop :=
  ∀ op ∈ unsupportedOpcodes,
    Encodes [op] (.unsupported op) ∧
    (∀ s, s.config.unsupportedPolicy = .marker →
      exec (.unsupported op) s =
        .next { s with unsupportedSeen := some (s.unsupportedSeen.getD (s.pc - 1, op)) } ∧
      (Ready s [op] →
        step s = .next { advanced s 1 1 with unsupportedSeen := some (s.unsupportedSeen.getD (s.pc, op)) })) ∧
    (∀ s, s.config.unsupportedPolicy = .refuse →
      exec (.unsupported op) s = .next { s with status := .refused (s.pc - 1) op } ∧
      (Ready s [op] → step s = .next { advanced s 1 1 with status := .refused s.pc op }))
end

