-- ==== Sys2Proof/Laws/Decode.lean ====
section
/-! SUPPORT. What the decoder answers, by the row of the opcode byte (30_encoding.md R101, R102). -/

namespace Sys2Proof.Laws

theorem decode_plain {op : Byte} {i : Instr} (hr : rowOf op = .plain i) (rest : List Byte) :
    decode (op :: rest) = .ok (i, rest) := by
  simp only [decode, hr]

theorem decode_imm8 {op : Byte} {f : Byte → Instr} (hr : rowOf op = .imm8 f) (n : Byte) (rest : List Byte) :
    decode (op :: n :: rest) = .ok (f n, rest) := by
  simp only [decode, hr]

theorem decode_imm16 {op : Byte} {f : Word → Instr} (hr : rowOf op = .imm16 f) (lo hi : Byte) (rest : List Byte) :
    decode (op :: lo :: hi :: rest) = .ok (f (compose16 lo hi), rest) := by
  simp only [decode, hr]

/-- Everything a decoded list of bytes can be. -/
theorem decode_cases {bytes rest : List Byte} {i : Instr} (h : decode bytes = .ok (i, rest)) :
    (∃ op, rowOf op = .plain i ∧ bytes = op :: rest) ∨
    (∃ op n f, rowOf op = .imm8 f ∧ i = f n ∧ bytes = op :: n :: rest) ∨
    (∃ op lo hi f, rowOf op = .imm16 f ∧ i = f (compose16 lo hi) ∧ bytes = op :: lo :: hi :: rest) := by
  match bytes, h with
  | [], h => simp [decode] at h
  | op :: bs, h =>
    cases hr : rowOf op with
    | plain j =>
      rw [decode_plain hr] at h
      cases h
      exact .inl ⟨op, hr, rfl⟩
    | imm8 f =>
      match bs, h with
      | [], h => simp [decode, hr] at h
      | n :: bs, h =>
        rw [decode_imm8 hr] at h
        cases h
        exact .inr (.inl ⟨op, n, f, hr, rfl, rfl⟩)
    | imm16 f =>
      match bs, h with
      | [], h => simp [decode, hr] at h
      | [_], h => simp [decode, hr] at h
      | lo :: hi :: bs, h =>
        rw [decode_imm16 hr] at h
        cases h
        exact .inr (.inr ⟨op, lo, hi, f, hr, rfl, rfl⟩)

end Sys2Proof.Laws
end

