-- ==== Sys2Proof/Laws/Forms.lean ====
section
/-! SUPPORT. exec by the shape of the instruction: what is to be shown of every instruction is shown of 13 forms. -/

namespace Sys2Proof.Machine

/-- The meaning of a form. -/
def formMeaning (x : Form) (s : State) : Res Unit :=
  match x with
  | .nop => nothing s
  | .jp target => jumpAbsolute target s
  | .jpCond cc target => jumpAbsoluteIf cc target s
  | .jr disp => jumpRelative disp s
  | .jrCond cc disp => jumpRelativeIf cc disp s
  | .jpHL => jumpHL s
  | .ld .atHL .atHL => loadOrUnsupported 0x76 s
  | .ld dst src => loadOperand dst src s
  | .alu o src => aluOperand o (s.operand src) s
  | .aluImm o n => aluOperand o (.imm n) s
  | .inc t => incOperand t s
  | .dec t => decOperand t s
  | .illegal op => raiseIllegal op s
  | .unsupported op => unsupportedOpcode op s

/-- Each instruction means what its form means. -/
theorem exec_eq_form (i : Instr) (s : State) : exec i s = (formMeaning i.form s).outcome := by
  cases i <;> rfl

/-- Every instruction answers a next state (log entry 1). -/
theorem exec_next (i : Instr) (s : State) : ∃ t, exec i s = .next t := by
  rw [exec_eq_form]
  cases formMeaning i.form s with
  | ok v t => exact ⟨t, rfl⟩
  | raised t => exact ⟨t, rfl⟩

end Sys2Proof.Machine
end

