-- ==== Sys2Proof/Laws/Memory.lean ====
section
/-! SUPPORT. The laws of the stores and of the memory map: read after write, and that every operation keeps the canonical
form. -/

namespace Sys2Proof.Machine

/-! ### One store -/

theorem Memory.wfFrom_mono {lo lo' : Nat} (hle : lo ≤ lo') : ∀ {m : Memory}, Memory.wfFrom lo' m = true → Memory.wfFrom lo m = true
  | [], _ => rfl
  | (k, b) :: rest, h => by
    simp only [Memory.wfFrom, Bool.and_eq_true, decide_eq_true_eq] at h ⊢
    exact ⟨⟨by omega, h.1.2⟩, h.2⟩

/-- An index below a canonical store's start is unlisted. -/
theorem Memory.get_below {i : Nat} : ∀ {lo : Nat} {m : Memory}, Memory.wfFrom lo m = true → i < lo →
    Memory.get m i = Memory.unlisted
  | _, [], _, _ => rfl
  | lo, (k, b) :: rest, h, hi => by
    simp only [Memory.wfFrom, Bool.and_eq_true, decide_eq_true_eq] at h
    have hk : i ≠ k := by omega
    simp only [Memory.get, hk, if_false]
    exact Memory.get_below h.2 (by omega)

/-- A write leaves every other index alone. -/
theorem Memory.get_set_other {i j : Nat} (v : Byte) (hij : j ≠ i) : ∀ m : Memory, Memory.get (Memory.set m i v) j = Memory.get m j
  | [] => by
    unfold Memory.set
    split <;> simp [Memory.get, hij]
  | (k, b) :: rest => by
    unfold Memory.set
    by_cases h1 : i < k
    · by_cases hv : v = Memory.unlisted <;> simp [h1, hv, Memory.get, hij]
    · by_cases h2 : i = k
      · subst h2
        by_cases hv : v = Memory.unlisted <;> simp [hv, Memory.get, hij]
      · simp only [h1, h2, if_false, Memory.get]
        rw [Memory.get_set_other v hij rest]

theorem Memory.get_set_same_from (i : Nat) (v : Byte) : ∀ {lo : Nat} {m : Memory}, Memory.wfFrom lo m = true →
    Memory.get (Memory.set m i v) i = v
  | _, [], _ => by
    unfold Memory.set
    by_cases hv : v = Memory.unlisted <;> simp [hv, Memory.get]
  | lo, (k, b) :: rest, h => by
    simp only [Memory.wfFrom, Bool.and_eq_true, decide_eq_true_eq] at h
    unfold Memory.set
    by_cases h1 : i < k
    · by_cases hv : v = Memory.unlisted
      · have hk : i ≠ k := by omega
        simp [h1, hv, Memory.get, hk, Memory.get_below h.2 (show i < k + 1 by omega)]
      · simp [h1, hv, Memory.get]
    · by_cases h2 : i = k
      · subst h2
        by_cases hv : v = Memory.unlisted
        · simp [hv, Memory.get_below h.2 (Nat.lt_succ_self i)]
        · simp [hv, Memory.get]
      · simp only [h1, h2, if_false, Memory.get]
        exact Memory.get_set_same_from i v h.2

/-- A read after a write to the same index of a canonical store gives the value written. -/
theorem Memory.get_set_same {m : Memory} (h : m.wf = true) (i : Nat) (v : Byte) : Memory.get (Memory.set m i v) i = v :=
  Memory.get_set_same_from i v h

theorem Memory.set_wfFrom (i : Nat) (v : Byte) : ∀ {lo : Nat} {m : Memory}, Memory.wfFrom lo m = true → lo ≤ i →
    Memory.wfFrom lo (Memory.set m i v) = true
  | lo, [], _, hi => by
    unfold Memory.set
    by_cases hv : v = Memory.unlisted <;> simp [hv, Memory.wfFrom, hi]
  | lo, (k, b) :: rest, h, hi => by
    have h0 := h
    simp only [Memory.wfFrom, Bool.and_eq_true, decide_eq_true_eq] at h
    unfold Memory.set
    by_cases h1 : i < k
    · by_cases hv : v = Memory.unlisted
      · simp [h1, hv, h0]
      · simp only [h1, hv, if_true, if_false, Memory.wfFrom, Bool.and_eq_true, decide_eq_true_eq]
        exact ⟨⟨hi, by simp [hv]⟩, ⟨⟨h1, h.1.2⟩, h.2⟩⟩
    · by_cases h2 : i = k
      · subst h2
        by_cases hv : v = Memory.unlisted
        · simp only [hv, lt_irrefl, if_true, if_false]
          exact Memory.wfFrom_mono (by omega) h.2
        · simp only [hv, lt_irrefl, if_true, if_false, Memory.wfFrom, Bool.and_eq_true, decide_eq_true_eq]
          exact ⟨⟨hi, by simp [hv]⟩, h.2⟩
      · simp only [h1, h2, if_false, Memory.wfFrom, Bool.and_eq_true, decide_eq_true_eq]
        exact ⟨h.1, Memory.set_wfFrom i v h.2 (by omega)⟩

/-- A write keeps the canonical form. -/
theorem Memory.set_wf {m : Memory} (h : m.wf = true) (i : Nat) (v : Byte) : (Memory.set m i v).wf = true :=
  Memory.set_wfFrom i v h (Nat.zero_le i)

theorem Memory.within_cons {size k : Nat} {b : Byte} {rest : Memory} :
    Memory.within size ((k, b) :: rest) = true ↔ k < size ∧ Memory.within size rest = true := by
  simp [Memory.within]

/-- A write inside a store lists nothing outside it. -/
theorem Memory.set_within {size i : Nat} (v : Byte) (hi : i < size) : ∀ {m : Memory}, Memory.within size m = true →
    Memory.within size (Memory.set m i v) = true
  | [], _ => by
    unfold Memory.set
    by_cases hv : v = Memory.unlisted <;> simp [hv, Memory.within, hi]
  | (k, b) :: rest, h => by
    have h' := Memory.within_cons.mp h
    unfold Memory.set
    by_cases h1 : i < k
    · by_cases hv : v = Memory.unlisted
      · simp [h1, hv, h]
      · simp only [h1, hv, if_true, if_false]
        exact Memory.within_cons.mpr ⟨hi, h⟩
    · by_cases h2 : i = k
      · subst h2
        by_cases hv : v = Memory.unlisted
        · simpa [hv] using h'.2
        · simp only [hv, lt_irrefl, if_true, if_false]
          exact Memory.within_cons.mpr ⟨hi, h'.2⟩
      · simp only [h1, h2, if_false]
        exact Memory.within_cons.mpr ⟨h'.1, Memory.set_within v hi h'.2⟩

theorem Memory.within_mono {n n' : Nat} (hle : n ≤ n') {m : Memory} (h : Memory.within n m = true) : Memory.within n' m = true := by
  simp only [Memory.within, List.all_eq_true, decide_eq_true_eq] at h ⊢
  exact fun c hc => lt_of_lt_of_le (h c hc) hle

theorem Memory.ofBytesFrom_wf : ∀ (bytes : List Byte) (i : Nat), Memory.wfFrom i (Memory.ofBytesFrom i bytes) = true
  | [], _ => rfl
  | b :: bs, i => by
    unfold Memory.ofBytesFrom
    by_cases hb : b = Memory.unlisted
    · simp only [hb, if_true]
      exact Memory.wfFrom_mono (Nat.le_succ i) (Memory.ofBytesFrom_wf bs (i + 1))
    · simp only [hb, if_false, Memory.wfFrom, Bool.and_eq_true, decide_eq_true_eq]
      exact ⟨⟨le_refl i, by simp [hb]⟩, Memory.ofBytesFrom_wf bs (i + 1)⟩

/-- A store made from a list of bytes is in canonical form. -/
theorem Memory.ofBytes_wf (bytes : List Byte) : (Memory.ofBytes bytes).wf = true := Memory.ofBytesFrom_wf bytes 0

theorem Memory.ofBytesFrom_within : ∀ (bytes : List Byte) (i n : Nat), i + bytes.length ≤ n →
    Memory.within n (Memory.ofBytesFrom i bytes) = true
  | [], _, _, _ => rfl
  | b :: bs, i, n, h => by
    simp only [List.length_cons] at h
    unfold Memory.ofBytesFrom
    by_cases hb : b = Memory.unlisted
    · simp only [hb, if_true]
      exact Memory.ofBytesFrom_within bs (i + 1) n (by omega)
    · simp only [hb, if_false]
      exact Memory.within_cons.mpr ⟨by omega, Memory.ofBytesFrom_within bs (i + 1) n (by omega)⟩

/-- A store made from a list of bytes lists nothing past the list's length. -/
theorem Memory.ofBytes_within {bytes : List Byte} {n : Nat} (h : bytes.length ≤ n) :
    Memory.within n (Memory.ofBytes bytes) = true :=
  Memory.ofBytesFrom_within bytes 0 n (by omega)

theorem Memory.get_ofBytesFrom : ∀ (bytes : List Byte) (i j : Nat),
    Memory.get (Memory.ofBytesFrom i bytes) (i + j) = bytes.getD j Memory.unlisted
  | [], _, _ => rfl
  | b :: bs, i, 0 => by
    unfold Memory.ofBytesFrom
    by_cases hb : b = Memory.unlisted
    · simp only [hb, if_true]
      rw [Memory.get_below (Memory.ofBytesFrom_wf bs (i + 1)) (by omega)]
      rfl
    · simp [hb, Memory.get]
  | b :: bs, i, j + 1 => by
    have ih := Memory.get_ofBytesFrom bs (i + 1) j
    have hij : i + (j + 1) = i + 1 + j := by omega
    unfold Memory.ofBytesFrom
    by_cases hb : b = Memory.unlisted
    · simp only [hb, if_true, hij, ih]
      rfl
    · have hne : i + 1 + j ≠ i := by omega
      simp only [hb, if_false, hij, Memory.get, hne, ih]
      rfl

/-- A store made from a list of bytes reads back the list (20_memory.md R56). -/
theorem Memory.get_ofBytes (bytes : List Byte) (j : Nat) :
    Memory.get (Memory.ofBytes bytes) j = bytes.getD j Memory.unlisted := by
  have h := Memory.get_ofBytesFrom bytes 0 j
  rwa [Nat.zero_add] at h

/-! ### The stores of the map -/

@[simp] theorem MemoryMap.store_setStore_same (m : MemoryMap) (st : Store) (x : Memory) : (m.setStore st x).store st = x := by
  cases st <;> rfl

theorem MemoryMap.store_setStore_other (m : MemoryMap) {st st' : Store} (x : Memory) (h : st' ≠ st) :
    (m.setStore st x).store st' = m.store st' := by
  cases st <;> cases st' <;> first | rfl | exact absurd rfl h

@[simp] theorem MemoryMap.size_setStore (m : MemoryMap) (st st' : Store) (x : Memory) :
    (m.setStore st x).size st' = m.size st' := by
  cases st <;> cases st' <;> rfl

@[simp] theorem MemoryMap.setStore_romLength (m : MemoryMap) (st : Store) (x : Memory) : (m.setStore st x).romLength = m.romLength := by
  cases st <;> rfl
@[simp] theorem MemoryMap.setStore_mEram (m : MemoryMap) (st : Store) (x : Memory) : (m.setStore st x).mEram = m.mEram := by
  cases st <;> rfl
@[simp] theorem MemoryMap.setStore_romBank (m : MemoryMap) (st : Store) (x : Memory) : (m.setStore st x).romBank = m.romBank := by
  cases st <;> rfl
@[simp] theorem MemoryMap.setStore_vramBank (m : MemoryMap) (st : Store) (x : Memory) : (m.setStore st x).vramBank = m.vramBank := by
  cases st <;> rfl
@[simp] theorem MemoryMap.setStore_eramBank (m : MemoryMap) (st : Store) (x : Memory) : (m.setStore st x).eramBank = m.eramBank := by
  cases st <;> rfl
@[simp] theorem MemoryMap.setStore_wramBank (m : MemoryMap) (st : Store) (x : Memory) : (m.setStore st x).wramBank = m.wramBank := by
  cases st <;> rfl

@[simp] theorem MemoryMap.cellOf_setStore (m : MemoryMap) (st : Store) (x : Memory) (a : Nat) :
    (m.setStore st x).cellOf a = m.cellOf a := by
  simp [MemoryMap.cellOf]

/-- The form of the map, store by store. -/
theorem MemoryMap.wf_iff (m : MemoryMap) :
    m.wf = true ↔ ∀ st, (m.store st).wf = true ∧ (m.store st).within (m.size st) = true := by
  constructor
  · intro h st
    simp only [MemoryMap.wf, List.all_cons, List.all_nil, Bool.and_eq_true, Bool.and_true] at h
    cases st <;> simp_all
  · intro h
    simp [MemoryMap.wf, (h _).1, (h _).2]

/-- Storing a byte in a cell that exists keeps the form. -/
theorem MemoryMap.setStore_wf {m : MemoryMap} (h : m.wf = true) {st : Store} {i : Nat} (v : Byte) (hi : i < m.size st) :
    (m.setStore st ((m.store st).set i v)).wf = true := by
  rw [MemoryMap.wf_iff] at h ⊢
  intro st'
  by_cases hst : st' = st
  · subst hst
    simp only [MemoryMap.store_setStore_same, MemoryMap.size_setStore]
    exact ⟨Memory.set_wf (h st').1 i v, Memory.set_within v hi (h st').2⟩
  · simp only [MemoryMap.store_setStore_other m _ hst, MemoryMap.size_setStore]
    exact h st'

/-! ### Reading and writing -/

/-- The window of each region, first and last address (20_memory.md R52). -/
def Region.window : Region → Nat × Nat
  | .romBank0 => (0x0000, 0x3FFF)
  | .romSwitchable => (0x4000, 0x7FFF)
  | .vram => (0x8000, 0x9FFF)
  | .eram => (0xA000, 0xBFFF)
  | .wramBank0 => (0xC000, 0xCFFF)
  | .wramSwitchable => (0xD000, 0xDFFF)
  | .mirrorBank0 => (0xE000, 0xEFFF)
  | .mirrorSwitchable => (0xF000, 0xFDFF)
  | .oam => (0xFE00, 0xFE9F)
  | .prohibited => (0xFEA0, 0xFEFF)
  | .io => (0xFF00, 0xFF7F)
  | .highRam => (0xFF80, 0xFFFE)
  | .interruptEnable => (0xFFFF, 0xFFFF)
  | .outside => (0x10000, 0)

/-- The region of an address is the one whose window holds it. -/
theorem regionOf_window {a : Nat} (h : a ≤ 0xFFFF) :
    (regionOf a).window.1 ≤ a ∧ a ≤ (regionOf a).window.2 := by
  unfold regionOf
  by_cases h0 : a ≤ 0x3FFF
  · rw [if_pos h0]; exact ⟨Nat.zero_le a, h0⟩
  rw [if_neg h0]
  by_cases h1 : a ≤ 0x7FFF
  · rw [if_pos h1]; exact ⟨by simp only [Region.window]; omega, h1⟩
  rw [if_neg h1]
  by_cases h2 : a ≤ 0x9FFF
  · rw [if_pos h2]; exact ⟨by simp only [Region.window]; omega, h2⟩
  rw [if_neg h2]
  by_cases h3 : a ≤ 0xBFFF
  · rw [if_pos h3]; exact ⟨by simp only [Region.window]; omega, h3⟩
  rw [if_neg h3]
  by_cases h4 : a ≤ 0xCFFF
  · rw [if_pos h4]; exact ⟨by simp only [Region.window]; omega, h4⟩
  rw [if_neg h4]
  by_cases h5 : a ≤ 0xDFFF
  · rw [if_pos h5]; exact ⟨by simp only [Region.window]; omega, h5⟩
  rw [if_neg h5]
  by_cases h6 : a ≤ 0xEFFF
  · rw [if_pos h6]; exact ⟨by simp only [Region.window]; omega, h6⟩
  rw [if_neg h6]
  by_cases h7 : a ≤ 0xFDFF
  · rw [if_pos h7]; exact ⟨by simp only [Region.window]; omega, h7⟩
  rw [if_neg h7]
  by_cases h8 : a ≤ 0xFE9F
  · rw [if_pos h8]; exact ⟨by simp only [Region.window]; omega, h8⟩
  rw [if_neg h8]
  by_cases h9 : a ≤ 0xFEFF
  · rw [if_pos h9]; exact ⟨by simp only [Region.window]; omega, h9⟩
  rw [if_neg h9]
  by_cases h10 : a ≤ 0xFF7F
  · rw [if_pos h10]; exact ⟨by simp only [Region.window]; omega, h10⟩
  rw [if_neg h10]
  by_cases h11 : a ≤ 0xFFFE
  · rw [if_pos h11]; exact ⟨by simp only [Region.window]; omega, h11⟩
  rw [if_neg h11]
  rw [if_pos h]
  exact ⟨by simp only [Region.window]; omega, h⟩

/-- The windows do not overlap, so the window an address lies in is its region. -/
theorem regionOf_eq {a : Nat} {r : Region} (hlo : r.window.1 ≤ a) (hhi : a ≤ r.window.2) : regionOf a = r := by
  have h : a ≤ 0xFFFF := le_trans hhi (by cases r <;> decide)
  have hw := regionOf_window h
  generalize regionOf a = r' at hw
  cases r <;> cases r' <;> simp only [Region.window] at hlo hhi hw <;> first | rfl | omega

/-- An address of 16 bits is never past the end (20_memory.md R75). -/
theorem regionOf_word (a : Word) : regionOf a.toNat ≠ .outside := by
  intro h
  have hw := regionOf_window (a := a.toNat) (by have := a.isLt; omega)
  rw [h] at hw
  simp only [Region.window] at hw
  omega

/-- An address in the prohibited region reaches no cell (20_memory.md R59). -/
theorem MemoryMap.cellOf_prohibited (m : MemoryMap) {a : Nat} (h : regionOf a = .prohibited) : m.cellOf a = none := by
  simp [MemoryMap.cellOf, h]

/-- Every other 16-bit address reaches one. -/
theorem MemoryMap.cellOf_some (m : MemoryMap) {a : Word} (h : regionOf a.toNat ≠ .prohibited) :
    ∃ st i, m.cellOf a.toNat = some (st, i) := by
  have ho := regionOf_word a
  unfold MemoryMap.cellOf
  split <;> simp_all

/-- Only the ROM windows reach ROM (20_memory.md R52). -/
theorem MemoryMap.cellOf_rom {m : MemoryMap} {a : Word} {i : Nat} (h : m.cellOf a.toNat = some (.rom, i)) :
    a.toNat ≤ 0x7FFF := by
  have hw := regionOf_window (a := a.toNat) (by have := a.isLt; omega)
  unfold MemoryMap.cellOf at h
  split at h <;> rename_i hr <;> rw [hr] at hw <;> simp only [Region.window] at hw <;> first | omega | cases h

/-- Everything a read can do (20_memory.md R54). -/
theorem MemoryMap.read_cases (m : MemoryMap) (a : Word) :
    (regionOf a.toNat = .prohibited ∧ m.read a = .ok 0x00) ∨
    (∃ st i, regionOf a.toNat ≠ .prohibited ∧ m.cellOf a.toNat = some (st, i) ∧ i < m.size st ∧
      m.read a = .ok ((m.store st).get i)) ∨
    (∃ st i, regionOf a.toNat ≠ .prohibited ∧ m.cellOf a.toNat = some (st, i) ∧ ¬ i < m.size st ∧
      m.read a = .error (.outOfBounds a)) := by
  by_cases hp : regionOf a.toNat = .prohibited
  · exact .inl ⟨hp, by simp [MemoryMap.read, hp]⟩
  · obtain ⟨st, i, hc⟩ := m.cellOf_some hp
    by_cases hi : i < m.size st
    · exact .inr (.inl ⟨st, i, hp, hc, hi, by simp [MemoryMap.read, hp, hc, hi]⟩)
    · exact .inr (.inr ⟨st, i, hp, hc, hi, by simp [MemoryMap.read, hp, hc, hi]⟩)

/-- A read fails in one way only (60_exceptions.md R231). -/
theorem MemoryMap.read_error {m : MemoryMap} {a : Word} {f : Fault} (h : m.read a = .error f) : f = .outOfBounds a := by
  rcases m.read_cases a with ⟨_, hr⟩ | ⟨st, i, _, _, _, hr⟩ | ⟨st, i, _, _, _, hr⟩ <;> simp_all

/-- Everything a successful write does (20_memory.md R55). -/
theorem MemoryMap.write_ok {m m' : MemoryMap} {a : Word} {v : Byte} (h : m.write a v = .ok m') :
    ¬ a.toNat ≤ 0x7FFF ∧ regionOf a.toNat ≠ .prohibited ∧
    ∃ st i, m.cellOf a.toNat = some (st, i) ∧ st ≠ .rom ∧ i < m.size st ∧ m' = m.setStore st ((m.store st).set i v) := by
  by_cases h1 : a.toNat ≤ 0x7FFF
  · simp [MemoryMap.write, h1] at h
  by_cases h2 : regionOf a.toNat = .prohibited
  · simp [MemoryMap.write, h1, h2] at h
  obtain ⟨st, i, hc⟩ := m.cellOf_some h2
  by_cases hi : i < m.size st
  · refine ⟨h1, h2, st, i, hc, ?_, hi, ?_⟩
    · rintro rfl
      exact h1 (MemoryMap.cellOf_rom hc)
    · simpa [MemoryMap.write, h1, h2, hc, hi, eq_comm] using h
  · simp [MemoryMap.write, h1, h2, hc, hi] at h

/-- Everything a failing write can raise (60_exceptions.md R231). -/
theorem MemoryMap.write_error {m : MemoryMap} {a : Word} {v : Byte} {f : Fault} (h : m.write a v = .error f) :
    (a.toNat ≤ 0x7FFF ∧ f = .readOnlyWrite a) ∨
    (¬ a.toNat ≤ 0x7FFF ∧ regionOf a.toNat = .prohibited ∧ f = .prohibitedRegion a) ∨
    (¬ a.toNat ≤ 0x7FFF ∧ regionOf a.toNat ≠ .prohibited ∧ f = .outOfBounds a ∧
      ∃ st i, m.cellOf a.toNat = some (st, i) ∧ ¬ i < m.size st) := by
  by_cases h1 : a.toNat ≤ 0x7FFF
  · left
    simp only [MemoryMap.write, h1, if_true, Except.error.injEq] at h
    exact ⟨h1, h.symm⟩
  by_cases h2 : regionOf a.toNat = .prohibited
  · right; left
    simp only [MemoryMap.write, h1, h2, if_true, if_false, Except.error.injEq] at h
    exact ⟨h1, h2, h.symm⟩
  obtain ⟨st, i, hc⟩ := m.cellOf_some h2
  by_cases hi : i < m.size st
  · simp [MemoryMap.write, h1, h2, hc, hi] at h
  · right; right
    simp only [MemoryMap.write, h1, h2, hc, hi, if_false, Except.error.injEq] at h
    exact ⟨h1, h2, h.symm, st, i, hc, hi⟩

/-- A write keeps the form of the map. -/
theorem MemoryMap.write_wf {m m' : MemoryMap} {a : Word} {v : Byte} (hm : m.wf = true) (h : m.write a v = .ok m') :
    m'.wf = true := by
  obtain ⟨_, _, st, i, _, _, hi, rfl⟩ := MemoryMap.write_ok h
  exact MemoryMap.setStore_wf hm v hi

/-- A write changes no size, bank index or cell of ROM. -/
theorem MemoryMap.write_frame {m m' : MemoryMap} {a : Word} {v : Byte} (h : m.write a v = .ok m') :
    m'.rom = m.rom ∧ m'.romLength = m.romLength ∧ m'.mEram = m.mEram ∧ m'.romBank = m.romBank ∧
    m'.vramBank = m.vramBank ∧ m'.eramBank = m.eramBank ∧ m'.wramBank = m.wramBank := by
  obtain ⟨_, _, st, i, _, hst, _, rfl⟩ := MemoryMap.write_ok h
  exact ⟨MemoryMap.store_setStore_other m (st := st) (st' := .rom) _ (Ne.symm hst), by simp, by simp, by simp, by simp, by simp, by simp⟩

/-- A write leaves every address that reaches another cell alone. -/
theorem MemoryMap.read_write_other {m m' : MemoryMap} {a x : Word} {v : Byte} (h : m.write a v = .ok m')
    (hx : m.cellOf x.toNat ≠ m.cellOf a.toNat) : m'.read x = m.read x := by
  obtain ⟨_, _, st, i, hc, _, _, rfl⟩ := MemoryMap.write_ok h
  by_cases hp : regionOf x.toNat = .prohibited
  · simp [MemoryMap.read, hp]
  obtain ⟨st', j, hc'⟩ := m.cellOf_some hp
  have hne : ¬(st' = st ∧ j = i) := by
    rintro ⟨rfl, rfl⟩
    exact hx (hc'.trans hc.symm)
  have hget : ((m.setStore st ((m.store st).set i v)).store st').get j = (m.store st').get j := by
    by_cases hst : st' = st
    · subst hst
      rw [MemoryMap.store_setStore_same]
      exact Memory.get_set_other v (fun hj => hne ⟨rfl, hj⟩) _
    · rw [MemoryMap.store_setStore_other m _ hst]
  simp [MemoryMap.read, hp, hc', hget]

/-- A read of any address that reaches the cell written gives the value written. -/
theorem MemoryMap.read_write_same {m m' : MemoryMap} {a x : Word} {v : Byte} (hm : m.wf = true) (h : m.write a v = .ok m')
    (hx : m.cellOf x.toNat = m.cellOf a.toNat) : m'.read x = .ok v := by
  obtain ⟨_, _, st, i, hc, _, hi, rfl⟩ := MemoryMap.write_ok h
  have hc' : m.cellOf x.toNat = some (st, i) := hx.trans hc
  have hp : regionOf x.toNat ≠ .prohibited := by
    intro hp
    rw [m.cellOf_prohibited hp] at hc'
    cases hc'
  have hw := ((MemoryMap.wf_iff m).mp hm st).1
  simp [MemoryMap.read, hp, hc', hi, Memory.get_set_same hw]

/-- Loading a byte from outside keeps the form too, when the cell's store has room for it. -/
theorem MemoryMap.load_wf {m : MemoryMap} {a : Word} (v : Byte) (hm : m.wf = true)
    (hroom : ∀ st i, m.cellOf a.toNat = some (st, i) → st ≠ .rom → st ≠ .eram → i < m.size st) : (m.load a v).wf = true := by
  have hs := (MemoryMap.wf_iff m).mp hm
  unfold MemoryMap.load
  split
  · exact hm
  · rename_i i _
    rw [MemoryMap.wf_iff]
    intro st
    cases st
    case rom =>
      exact ⟨Memory.set_wf (hs .rom).1 i v, Memory.set_within v (lt_of_lt_of_le (Nat.lt_succ_self i) (le_max_right _ _))
        (Memory.within_mono (le_max_left _ _) (hs .rom).2)⟩
    all_goals first
      | exact hs .rom | exact hs .vram | exact hs .eram | exact hs .wram
      | exact hs .oam | exact hs .io | exact hs .hram | exact hs .ie
  · rename_i i _
    have hi : i < max m.mEram (i / 8192 + 1) * 8192 := by omega
    have hle : m.mEram * 8192 ≤ max m.mEram (i / 8192 + 1) * 8192 := by omega
    rw [MemoryMap.wf_iff]
    intro st
    cases st
    case eram =>
      exact ⟨Memory.set_wf (hs .eram).1 i v, Memory.set_within v hi (Memory.within_mono hle (hs .eram).2)⟩
    all_goals first
      | exact hs .rom | exact hs .vram | exact hs .eram | exact hs .wram
      | exact hs .oam | exact hs .io | exact hs .hram | exact hs .ie
  · rename_i st i hr he hc
    exact MemoryMap.setStore_wf hm v (hroom st i hc hr he)

/-- The map at construction is in canonical form, whatever it is built from. -/
theorem MemoryMap.construct_wf (k : Construction) : (MemoryMap.construct k).wf = true := by
  rw [MemoryMap.wf_iff]
  intro st
  cases st
  case rom => exact ⟨Memory.ofBytes_wf _, Memory.ofBytes_within (le_refl _)⟩
  case eram => exact ⟨Memory.ofBytes_wf _, Memory.ofBytes_within (by simp [MemoryMap.construct, MemoryMap.size])⟩
  case ie => exact ⟨Memory.ofBytes_wf _, Memory.ofBytes_within (by simp [MemoryMap.size])⟩
  all_goals exact ⟨rfl, rfl⟩

/-- The memory of reset is in canonical form. -/
theorem State.reset_mem_wf : State.reset.mem.wf = true := MemoryMap.construct_wf _

end Sys2Proof.Machine
end

