-- ==== Sys2Proof/Laws/State.lean ====
section
/-! SUPPORT. What each state update leaves in each field. -/

namespace Sys2Proof.Machine

@[simp] theorem State.tick_a (s : State) : (s.tick).a = s.a := rfl
@[simp] theorem State.tick_b (s : State) : (s.tick).b = s.b := rfl
@[simp] theorem State.tick_c (s : State) : (s.tick).c = s.c := rfl
@[simp] theorem State.tick_d (s : State) : (s.tick).d = s.d := rfl
@[simp] theorem State.tick_e (s : State) : (s.tick).e = s.e := rfl
@[simp] theorem State.tick_f (s : State) : (s.tick).f = s.f := rfl
@[simp] theorem State.tick_h (s : State) : (s.tick).h = s.h := rfl
@[simp] theorem State.tick_l (s : State) : (s.tick).l = s.l := rfl
@[simp] theorem State.tick_sp (s : State) : (s.tick).sp = s.sp := rfl
@[simp] theorem State.tick_pc (s : State) : (s.tick).pc = s.pc := rfl
@[simp] theorem State.tick_mcycles (s : State) : (s.tick).mcycles = s.mcycles + 1 := rfl
@[simp] theorem State.tick_mem (s : State) : (s.tick).mem = s.mem := rfl
@[simp] theorem State.tick_status (s : State) : (s.tick).status = s.status := rfl
@[simp] theorem State.tick_unsupportedSeen (s : State) : (s.tick).unsupportedSeen = s.unsupportedSeen := rfl
@[simp] theorem State.tick_config (s : State) : (s.tick).config = s.config := rfl

@[simp] theorem State.raise_a (s : State) (x : Fault) : (s.raise x).a = s.a := rfl
@[simp] theorem State.raise_b (s : State) (x : Fault) : (s.raise x).b = s.b := rfl
@[simp] theorem State.raise_c (s : State) (x : Fault) : (s.raise x).c = s.c := rfl
@[simp] theorem State.raise_d (s : State) (x : Fault) : (s.raise x).d = s.d := rfl
@[simp] theorem State.raise_e (s : State) (x : Fault) : (s.raise x).e = s.e := rfl
@[simp] theorem State.raise_f (s : State) (x : Fault) : (s.raise x).f = s.f := rfl
@[simp] theorem State.raise_h (s : State) (x : Fault) : (s.raise x).h = s.h := rfl
@[simp] theorem State.raise_l (s : State) (x : Fault) : (s.raise x).l = s.l := rfl
@[simp] theorem State.raise_sp (s : State) (x : Fault) : (s.raise x).sp = s.sp := rfl
@[simp] theorem State.raise_pc (s : State) (x : Fault) : (s.raise x).pc = s.pc := rfl
@[simp] theorem State.raise_mcycles (s : State) (x : Fault) : (s.raise x).mcycles = s.mcycles := rfl
@[simp] theorem State.raise_mem (s : State) (x : Fault) : (s.raise x).mem = s.mem := rfl
@[simp] theorem State.raise_status (s : State) (x : Fault) : (s.raise x).status = .faulted x := rfl
@[simp] theorem State.raise_unsupportedSeen (s : State) (x : Fault) : (s.raise x).unsupportedSeen = s.unsupportedSeen := rfl
@[simp] theorem State.raise_config (s : State) (x : Fault) : (s.raise x).config = s.config := rfl

@[simp] theorem State.setFlags_a (s : State) (z n h c : Bool) : (s.setFlags z n h c).a = s.a := rfl
@[simp] theorem State.setFlags_b (s : State) (z n h c : Bool) : (s.setFlags z n h c).b = s.b := rfl
@[simp] theorem State.setFlags_c (s : State) (z n h c : Bool) : (s.setFlags z n h c).c = s.c := rfl
@[simp] theorem State.setFlags_d (s : State) (z n h c : Bool) : (s.setFlags z n h c).d = s.d := rfl
@[simp] theorem State.setFlags_e (s : State) (z n h c : Bool) : (s.setFlags z n h c).e = s.e := rfl
@[simp] theorem State.setFlags_f (s : State) (z n h c : Bool) : (s.setFlags z n h c).f = packFlags z n h c := rfl
@[simp] theorem State.setFlags_h (s : State) (z n h c : Bool) : (s.setFlags z n h c).h = s.h := rfl
@[simp] theorem State.setFlags_l (s : State) (z n h c : Bool) : (s.setFlags z n h c).l = s.l := rfl
@[simp] theorem State.setFlags_sp (s : State) (z n h c : Bool) : (s.setFlags z n h c).sp = s.sp := rfl
@[simp] theorem State.setFlags_pc (s : State) (z n h c : Bool) : (s.setFlags z n h c).pc = s.pc := rfl
@[simp] theorem State.setFlags_mcycles (s : State) (z n h c : Bool) : (s.setFlags z n h c).mcycles = s.mcycles := rfl
@[simp] theorem State.setFlags_mem (s : State) (z n h c : Bool) : (s.setFlags z n h c).mem = s.mem := rfl
@[simp] theorem State.setFlags_status (s : State) (z n h c : Bool) : (s.setFlags z n h c).status = s.status := rfl
@[simp] theorem State.setFlags_unsupportedSeen (s : State) (z n h c : Bool) : (s.setFlags z n h c).unsupportedSeen = s.unsupportedSeen := rfl
@[simp] theorem State.setFlags_config (s : State) (z n h c : Bool) : (s.setFlags z n h c).config = s.config := rfl

@[simp] theorem State.setReg_f (s : State) (r : Reg8) (v : Byte) : (s.setReg r v).f = s.f := by cases r <;> rfl
@[simp] theorem State.setReg_sp (s : State) (r : Reg8) (v : Byte) : (s.setReg r v).sp = s.sp := by cases r <;> rfl
@[simp] theorem State.setReg_pc (s : State) (r : Reg8) (v : Byte) : (s.setReg r v).pc = s.pc := by cases r <;> rfl
@[simp] theorem State.setReg_mcycles (s : State) (r : Reg8) (v : Byte) : (s.setReg r v).mcycles = s.mcycles := by cases r <;> rfl
@[simp] theorem State.setReg_mem (s : State) (r : Reg8) (v : Byte) : (s.setReg r v).mem = s.mem := by cases r <;> rfl
@[simp] theorem State.setReg_status (s : State) (r : Reg8) (v : Byte) : (s.setReg r v).status = s.status := by cases r <;> rfl
@[simp] theorem State.setReg_unsupportedSeen (s : State) (r : Reg8) (v : Byte) : (s.setReg r v).unsupportedSeen = s.unsupportedSeen := by cases r <;> rfl
@[simp] theorem State.setReg_config (s : State) (r : Reg8) (v : Byte) : (s.setReg r v).config = s.config := by cases r <;> rfl

@[simp] theorem State.setReg_reg_same (s : State) (r : Reg8) (v : Byte) : (s.setReg r v).reg r = v := by cases r <;> rfl

theorem State.setReg_reg_other (s : State) {r r' : Reg8} (v : Byte) (h : r' ≠ r) : (s.setReg r v).reg r' = s.reg r' := by
  cases r <;> cases r' <;> first | rfl | exact absurd rfl h

/-- Writing back the value a register holds changes nothing. -/
@[simp] theorem State.setReg_self (s : State) (r : Reg8) : s.setReg r (s.reg r) = s := by cases r <;> rfl

@[simp] theorem State.tick_reg (s : State) (r : Reg8) : (s.tick).reg r = s.reg r := by cases r <;> rfl
@[simp] theorem State.tick_hl (s : State) : (s.tick).hl = s.hl := rfl
@[simp] theorem State.raise_reg (s : State) (x : Fault) (r : Reg8) : (s.raise x).reg r = s.reg r := by cases r <;> rfl
@[simp] theorem State.raise_hl (s : State) (x : Fault) : (s.raise x).hl = s.hl := rfl
@[simp] theorem State.setFlags_reg (s : State) (z n h c : Bool) (r : Reg8) : (s.setFlags z n h c).reg r = s.reg r := by cases r <;> rfl
@[simp] theorem State.setFlags_hl (s : State) (z n h c : Bool) : (s.setFlags z n h c).hl = s.hl := rfl

@[simp] theorem State.aluWrite_b (s : State) (o : AluOp) (x : AluOut) : (s.aluWrite o x).b = s.b := by
  unfold State.aluWrite; split <;> rfl
@[simp] theorem State.aluWrite_c (s : State) (o : AluOp) (x : AluOut) : (s.aluWrite o x).c = s.c := by
  unfold State.aluWrite; split <;> rfl
@[simp] theorem State.aluWrite_d (s : State) (o : AluOp) (x : AluOut) : (s.aluWrite o x).d = s.d := by
  unfold State.aluWrite; split <;> rfl
@[simp] theorem State.aluWrite_e (s : State) (o : AluOp) (x : AluOut) : (s.aluWrite o x).e = s.e := by
  unfold State.aluWrite; split <;> rfl
@[simp] theorem State.aluWrite_h (s : State) (o : AluOp) (x : AluOut) : (s.aluWrite o x).h = s.h := by
  unfold State.aluWrite; split <;> rfl
@[simp] theorem State.aluWrite_l (s : State) (o : AluOp) (x : AluOut) : (s.aluWrite o x).l = s.l := by
  unfold State.aluWrite; split <;> rfl
@[simp] theorem State.aluWrite_sp (s : State) (o : AluOp) (x : AluOut) : (s.aluWrite o x).sp = s.sp := by
  unfold State.aluWrite; split <;> rfl
@[simp] theorem State.aluWrite_pc (s : State) (o : AluOp) (x : AluOut) : (s.aluWrite o x).pc = s.pc := by
  unfold State.aluWrite; split <;> rfl
@[simp] theorem State.aluWrite_mcycles (s : State) (o : AluOp) (x : AluOut) : (s.aluWrite o x).mcycles = s.mcycles := by
  unfold State.aluWrite; split <;> rfl
@[simp] theorem State.aluWrite_mem (s : State) (o : AluOp) (x : AluOut) : (s.aluWrite o x).mem = s.mem := by
  unfold State.aluWrite; split <;> rfl
@[simp] theorem State.aluWrite_status (s : State) (o : AluOp) (x : AluOut) : (s.aluWrite o x).status = s.status := by
  unfold State.aluWrite; split <;> rfl
@[simp] theorem State.aluWrite_unsupportedSeen (s : State) (o : AluOp) (x : AluOut) : (s.aluWrite o x).unsupportedSeen = s.unsupportedSeen := by
  unfold State.aluWrite; split <;> rfl
@[simp] theorem State.aluWrite_config (s : State) (o : AluOp) (x : AluOut) : (s.aluWrite o x).config = s.config := by
  unfold State.aluWrite; split <;> rfl

@[simp] theorem State.aluWrite_f (s : State) (o : AluOp) (x : AluOut) : (s.aluWrite o x).f = packFlags x.z x.n x.h x.c := by
  unfold State.aluWrite; split <;> rfl

theorem State.aluWrite_a (s : State) (o : AluOp) (x : AluOut) : (s.aluWrite o x).a = if o = .cp then s.a else x.r := by
  unfold State.aluWrite; split <;> rfl

@[simp] theorem State.tick_flag (s : State) (fl : Flag) : s.tick.flag fl = s.flag fl := rfl

/-- Each flag of F after SetFlags (10_state.md R23, R25). -/
@[simp] theorem packFlags_z (z n h c : Bool) : (packFlags z n h c).getLsbD 7 = z := by
  cases z <;> cases n <;> cases h <;> cases c <;> rfl
@[simp] theorem packFlags_n (z n h c : Bool) : (packFlags z n h c).getLsbD 6 = n := by
  cases z <;> cases n <;> cases h <;> cases c <;> rfl
@[simp] theorem packFlags_h (z n h c : Bool) : (packFlags z n h c).getLsbD 5 = h := by
  cases z <;> cases n <;> cases h <;> cases c <;> rfl
@[simp] theorem packFlags_c (z n h c : Bool) : (packFlags z n h c).getLsbD 4 = c := by
  cases z <;> cases n <;> cases h <;> cases c <;> rfl

/-- SetFlags leaves the low nibble zero (10_state.md R25). -/
@[simp] theorem packFlags_low (z n h c : Bool) : (packFlags z n h c).extractLsb' 0 4 = 0#4 := by
  cases z <;> cases n <;> cases h <;> cases c <;> rfl

end Sys2Proof.Machine
end

