-- ==== Sys2Proof/Laws/Ops.lean ====
section
/-! SUPPORT. Everything each shared operation can do, said once. -/

namespace Sys2Proof.Machine

@[simp] theorem Res.bind_ok {α β : Type} (v : α) (s : State) (k : α → State → Res β) : (Res.ok v s).bind k = k v s := rfl
@[simp] theorem Res.bind_raised {α β : Type} (s : State) (k : α → State → Res β) : (Res.raised s).bind k = .raised s := rfl
@[simp] theorem Res.outcome_ok (s : State) : (Res.ok () s).outcome = .next s := rfl
@[simp] theorem Res.outcome_raised (s : State) : (Res.raised s).outcome = .next s := rfl

/-- A sequence ends well only when both its parts do. -/
theorem Res.bind_eq_ok {α β : Type} {r : Res α} {k : α → State → Res β} {w : β} {t : State} (h : r.bind k = .ok w t) :
    ∃ v s, r = .ok v s ∧ k v s = .ok w t := by
  cases r with
  | ok v s => exact ⟨v, s, rfl, h⟩
  | raised s => cases h

/-- A sequence raises in its first part or in its second. -/
theorem Res.bind_eq_raised {α β : Type} {r : Res α} {k : α → State → Res β} {t : State} (h : r.bind k = .raised t) :
    r = .raised t ∨ ∃ v s, r = .ok v s ∧ k v s = .raised t := by
  cases r with
  | ok v s => exact .inr ⟨v, s, rfl, h⟩
  | raised s => exact .inl (by simpa using h)

/-- No instruction ends the machine itself: it always answers a next state (log entry 1). -/
theorem Res.outcome_next (r : Res Unit) : ∃ t, r.outcome = .next t := by
  cases r with
  | ok v s => exact ⟨s, rfl⟩
  | raised s => exact ⟨s, rfl⟩

/-! ### The accesses -/

theorem memRead_ok {a : Word} {s : State} {v : Byte} (h : s.mem.read a = .ok v) : memRead a s = .ok v s.tick := by
  simp [memRead, h]

theorem memRead_error {a : Word} {s : State} {x : Fault} (h : s.mem.read a = .error x) :
    memRead a s = .raised (s.tick.raise x) := by
  simp [memRead, h]

/-- Everything `MemRead` can do (20_memory.md R54). -/
theorem memRead_cases (a : Word) (s : State) :
    (∃ v, s.mem.read a = .ok v ∧ memRead a s = .ok v s.tick) ∨
    (s.mem.read a = .error (.outOfBounds a) ∧ memRead a s = .raised (s.tick.raise (.outOfBounds a))) := by
  cases h : s.mem.read a with
  | ok v => exact .inl ⟨v, rfl, memRead_ok h⟩
  | error x =>
    have hx := MemoryMap.read_error h
    subst hx
    exact .inr ⟨rfl, memRead_error h⟩

theorem memWrite_ok {a : Word} {v : Byte} {s : State} {m : MemoryMap} (h : s.mem.write a v = .ok m) :
    memWrite a v s = .ok () { s.tick with mem := m } := by
  simp [memWrite, h]

theorem memWrite_error {a : Word} {v : Byte} {s : State} {x : Fault} (h : s.mem.write a v = .error x) :
    memWrite a v s = .raised (s.tick.raise x) := by
  simp [memWrite, h]

/-- Everything `MemWrite` can do (20_memory.md R55). -/
theorem memWrite_cases (a : Word) (v : Byte) (s : State) :
    (∃ m, s.mem.write a v = .ok m ∧ memWrite a v s = .ok () { s.tick with mem := m }) ∨
    (∃ x, s.mem.write a v = .error x ∧ memWrite a v s = .raised (s.tick.raise x)) := by
  cases h : s.mem.write a v with
  | ok m => exact .inl ⟨m, rfl, memWrite_ok h⟩
  | error x => exact .inr ⟨x, rfl, memWrite_error h⟩

theorem fetchByte_ok {s : State} {v : Byte} (h : s.mem.read s.pc = .ok v) :
    fetchByte s = .ok v { s with pc := s.pc + 1, mcycles := s.mcycles + 1 } := by
  simp [fetchByte, memRead_ok h, State.tick]

theorem fetchByte_error {s : State} {x : Fault} (h : s.mem.read s.pc = .error x) :
    fetchByte s = .raised (s.tick.raise x) := by
  simp [fetchByte, memRead_error h]

/-- Everything `FetchByte` can do (30_encoding.md R95). -/
theorem fetchByte_cases (s : State) :
    (∃ v, s.mem.read s.pc = .ok v ∧ fetchByte s = .ok v { s with pc := s.pc + 1, mcycles := s.mcycles + 1 }) ∨
    (s.mem.read s.pc = .error (.outOfBounds s.pc) ∧ fetchByte s = .raised (s.tick.raise (.outOfBounds s.pc))) := by
  cases h : s.mem.read s.pc with
  | ok v => exact .inl ⟨v, rfl, fetchByte_ok h⟩
  | error x =>
    have hx := MemoryMap.read_error h
    subst hx
    exact .inr ⟨rfl, fetchByte_error h⟩

/-! ### Operands -/

@[simp] theorem readOperand_reg (r : Reg8) (s : State) : readOperand (.reg r) s = .ok (s.reg r) s := rfl
@[simp] theorem readOperand_ind (a : Word) (s : State) : readOperand (.ind a) s = memRead a s := rfl
@[simp] theorem readOperand_imm (b : Byte) (s : State) : readOperand (.imm b) s = .ok b s := rfl
@[simp] theorem writeOperand_reg (r : Reg8) (v : Byte) (s : State) : writeOperand (.reg r) v s = .ok () (s.setReg r v) := rfl
@[simp] theorem writeOperand_ind (a : Word) (v : Byte) (s : State) : writeOperand (.ind a) v s = memWrite a v s := rfl
@[simp] theorem writeOperand_imm (b v : Byte) (s : State) : writeOperand (.imm b) v s = .ok () s := rfl
@[simp] theorem State.operand_reg (s : State) (r : Reg8) : s.operand (.reg r) = .reg r := rfl
@[simp] theorem State.operand_atHL (s : State) : s.operand .atHL = .ind s.hl := rfl

/-- The code a field holds is the one `extract_bits` gives (30_encoding.md R98; 00_scope.md R11). -/
theorem FieldOffset.code_low (op : Byte) : extractBits op 0 3 = .ok ((FieldOffset.low.code op).setWidth 8) := by
  revert op; decide

theorem FieldOffset.code_high (op : Byte) : extractBits op 3 3 = .ok ((FieldOffset.high.code op).setWidth 8) := by
  revert op; decide

/-! ### The unsupported opcode -/

/-- Everything an unsupported opcode can do (43_illegal_unsupported.md R221, R222). -/
theorem unsupportedOpcode_cases (op : Byte) (s : State) :
    (s.config.unsupportedPolicy = .marker ∧ s.unsupportedSeen = none ∧
      unsupportedOpcode op s = .ok () { s with unsupportedSeen := some (s.pc - 1, op) }) ∨
    (s.config.unsupportedPolicy = .marker ∧ s.unsupportedSeen ≠ none ∧ unsupportedOpcode op s = .ok () s) ∨
    (s.config.unsupportedPolicy = .refuse ∧
      unsupportedOpcode op s = .raised { s with status := .refused (s.pc - 1) op }) := by
  cases hp : s.config.unsupportedPolicy with
  | marker =>
    cases hm : s.unsupportedSeen with
    | none => exact .inl ⟨rfl, rfl, by simp [unsupportedOpcode, hp, hm]⟩
    | some w => exact .inr (.inl ⟨rfl, by simp, by simp [unsupportedOpcode, hp, hm]⟩)
  | refuse => exact .inr (.inr ⟨rfl, by simp [unsupportedOpcode, hp]⟩)

end Sys2Proof.Machine
end

