-- ==== Sys2Proof/Laws/Exec.lean ====
section
/-! SUPPORT. Everything an instruction can do, said once: the inversion of exec. -/

namespace Sys2Proof.Machine

/-- `Effect x s t`: an instruction of form `x`, run at `s`, leaves `t`. -/
inductive Effect : Form → State → State → Prop where
  | nop (s : State) : Effect .nop s s
  | jp (target : Word) (s : State) : Effect (.jp target) s { s.tick with pc := target }
  | jpTaken (cc : Cond) (target : Word) (s : State) (hc : s.cond cc = true) :
    Effect (.jpCond cc target) s { s.tick with pc := target }
  | jpNot (cc : Cond) (target : Word) (s : State) (hc : s.cond cc = false) : Effect (.jpCond cc target) s s
  | jr (disp : Byte) (s : State) : Effect (.jr disp) s { s.tick with pc := s.relativeTarget disp }
  | jrTaken (cc : Cond) (disp : Byte) (s : State) (hc : s.cond cc = true) :
    Effect (.jrCond cc disp) s { s.tick with pc := s.relativeTarget disp }
  | jrNot (cc : Cond) (disp : Byte) (s : State) (hc : s.cond cc = false) : Effect (.jrCond cc disp) s s
  | jpHL (s : State) : Effect .jpHL s { s with pc := s.hl }
  | ldReg (dst src : Reg8) (s : State) : Effect (.ld (.reg dst) (.reg src)) s (s.setReg dst (s.reg src))
  | ldFromHL (dst : Reg8) (v : Byte) (s : State) (hr : s.mem.read s.hl = .ok v) :
    Effect (.ld (.reg dst) .atHL) s (s.tick.setReg dst v)
  | ldToHL (src : Reg8) (m : MemoryMap) (s : State) (hw : s.mem.write s.hl (s.reg src) = .ok m) :
    Effect (.ld .atHL (.reg src)) s { s.tick with mem := m }
  | ldHLHL (v : Byte) (m : MemoryMap) (s : State) (hp : s.config.opc76Policy = .documentLoad)
    (hr : s.mem.read s.hl = .ok v) (hw : s.mem.write s.hl v = .ok m) :
    Effect (.ld .atHL .atHL) s { s.tick.tick with mem := m }
  | alu (o : AluOp) (src : Reg8) (s : State) :
    Effect (.alu o (.reg src)) s (s.aluWrite o (aluCompute s.config.carryInMode o s.a (s.reg src) (s.flag .c)))
  | aluHL (o : AluOp) (v : Byte) (s : State) (hr : s.mem.read s.hl = .ok v) :
    Effect (.alu o .atHL) s (s.tick.aluWrite o (aluCompute s.config.carryInMode o s.a v (s.flag .c)))
  | aluImm (o : AluOp) (n : Byte) (s : State) :
    Effect (.aluImm o n) s (s.aluWrite o (aluCompute s.config.carryInMode o s.a n (s.flag .c)))
  | inc (r : Reg8) (s : State) :
    Effect (.inc (.reg r)) s
      ((s.setReg r (inc8 (s.reg r)).r).setFlags ((inc8 (s.reg r)).r == 0) false (inc8 (s.reg r)).h (s.flag .c))
  | dec (r : Reg8) (s : State) :
    Effect (.dec (.reg r)) s
      ((s.setReg r (dec8 (s.reg r)).r).setFlags ((dec8 (s.reg r)).r == 0) true (dec8 (s.reg r)).h (s.flag .c))
  | incHL (v : Byte) (m : MemoryMap) (s : State) (hr : s.mem.read s.hl = .ok v)
    (hw : s.mem.write s.hl (inc8 v).r = .ok m) :
    Effect (.inc .atHL) s
      ({ s.tick.tick with mem := m }.setFlags ((inc8 v).r == 0) false (inc8 v).h (s.flag .c))
  | decHL (v : Byte) (m : MemoryMap) (s : State) (hr : s.mem.read s.hl = .ok v)
    (hw : s.mem.write s.hl (dec8 v).r = .ok m) :
    Effect (.dec .atHL) s
      ({ s.tick.tick with mem := m }.setFlags ((dec8 v).r == 0) true (dec8 v).h (s.flag .c))
  | readFault (x : Form) (s : State)
    (hx : (∃ dst, x = .ld (.reg dst) .atHL) ∨ (x = .ld .atHL .atHL ∧ s.config.opc76Policy = .documentLoad) ∨
      (∃ o, x = .alu o .atHL) ∨ x = .inc .atHL ∨ x = .dec .atHL)
    (hr : s.mem.read s.hl = .error (.outOfBounds s.hl)) : Effect x s (s.tick.raise (.outOfBounds s.hl))
  | storeFault (src : Reg8) (x : Fault) (s : State) (hw : s.mem.write s.hl (s.reg src) = .error x) :
    Effect (.ld .atHL (.reg src)) s (s.tick.raise x)
  | updateFault (x : Form) (v w : Byte) (e : Fault) (s : State)
    (hx : (x = .ld .atHL .atHL ∧ s.config.opc76Policy = .documentLoad ∧ w = v) ∨
      (x = .inc .atHL ∧ w = (inc8 v).r) ∨ (x = .dec .atHL ∧ w = (dec8 v).r))
    (hr : s.mem.read s.hl = .ok v) (hw : s.mem.write s.hl w = .error e) : Effect x s (s.tick.tick.raise e)
  | illegal (op : Byte) (s : State) : Effect (.illegal op) s (s.raise (.illegalOpcode (s.pc - 1) op))
  | marked (x : Form) (op : Byte) (s : State)
    (hx : x = .unsupported op ∨ (x = .ld .atHL .atHL ∧ op = 0x76 ∧ s.config.opc76Policy = .unsupported))
    (hp : s.config.unsupportedPolicy = .marker) (hs : s.unsupportedSeen = none) :
    Effect x s { s with unsupportedSeen := some (s.pc - 1, op) }
  | markedBefore (x : Form) (op : Byte) (s : State)
    (hx : x = .unsupported op ∨ (x = .ld .atHL .atHL ∧ op = 0x76 ∧ s.config.opc76Policy = .unsupported))
    (hp : s.config.unsupportedPolicy = .marker) (hs : s.unsupportedSeen ≠ none) : Effect x s s
  | refused (x : Form) (op : Byte) (s : State)
    (hx : x = .unsupported op ∨ (x = .ld .atHL .atHL ∧ op = 0x76 ∧ s.config.opc76Policy = .unsupported))
    (hp : s.config.unsupportedPolicy = .refuse) : Effect x s { s with status := .refused (s.pc - 1) op }

theorem Effect.gap {x : Form} {op : Byte} {s t : State}
    (hx : x = .unsupported op ∨ (x = .ld .atHL .atHL ∧ op = 0x76 ∧ s.config.opc76Policy = .unsupported))
    (h : (unsupportedOpcode op s).outcome = .next t) : Effect x s t := by
  rcases unsupportedOpcode_cases op s with ⟨hp, hs, hu⟩ | ⟨hp, hs, hu⟩ | ⟨hp, hu⟩ <;> rw [hu] at h <;> cases h
  · exact .marked x op s hx hp hs
  · exact .markedBefore x op s hx hp hs
  · exact .refused x op s hx hp

theorem Effect.load {dst src : Slot} {s t : State} (hp : dst = .atHL ∧ src = .atHL → s.config.opc76Policy = .documentLoad)
    (h : (loadOperand dst src s).outcome = .next t) : Effect (.ld dst src) s t := by
  unfold loadOperand at h
  cases src with
  | reg r =>
    cases dst with
    | reg q => cases h; exact .ldReg q r s
    | atHL =>
      simp only [State.operand_reg, State.operand_atHL, readOperand_reg, Res.bind_ok, writeOperand_ind] at h
      rcases memWrite_cases s.hl (s.reg r) s with ⟨m, hw, he⟩ | ⟨x, hw, he⟩ <;> rw [he] at h <;> cases h
      · exact .ldToHL r m s hw
      · exact .storeFault r x s hw
  | atHL =>
    simp only [State.operand_atHL, readOperand_ind] at h
    rcases memRead_cases s.hl s with ⟨v, hr, he⟩ | ⟨hr, he⟩ <;> rw [he] at h
    · simp only [Res.bind_ok] at h
      cases dst with
      | reg q => cases h; exact .ldFromHL q v s hr
      | atHL =>
        have hp := hp ⟨rfl, rfl⟩
        simp only [State.operand_atHL, writeOperand_ind] at h
        rcases memWrite_cases s.hl v s.tick with ⟨m, hw, he⟩ | ⟨x, hw, he⟩ <;> rw [he] at h <;> cases h
        · exact .ldHLHL v m s hp hr hw
        · exact .updateFault _ v v x s (.inl ⟨rfl, hp, rfl⟩) hr hw
    · cases h
      refine .readFault _ s ?_ hr
      cases dst with
      | reg q => exact .inl ⟨q, rfl⟩
      | atHL => exact .inr (.inl ⟨rfl, hp ⟨rfl, rfl⟩⟩)

theorem Effect.aluSlot {o : AluOp} {src : Slot} {s t : State} (h : (aluOperand o (s.operand src) s).outcome = .next t) :
    Effect (.alu o src) s t := by
  unfold aluOperand at h
  cases src with
  | reg r => cases h; exact .alu o r s
  | atHL =>
    simp only [State.operand_atHL, readOperand_ind] at h
    rcases memRead_cases s.hl s with ⟨v, hr, he⟩ | ⟨hr, he⟩ <;> rw [he] at h <;> cases h
    · exact .aluHL o v s hr
    · exact .readFault _ s (.inr (.inr (.inl ⟨o, rfl⟩))) hr

theorem Effect.incSlot {x : Slot} {s t : State} (h : (incOperand x s).outcome = .next t) : Effect (.inc x) s t := by
  unfold incOperand at h
  cases x with
  | reg r =>
    cases h
    have := Effect.inc r s
    rwa [show s.flag .c = (s.setReg r (inc8 (s.reg r)).r).flag .c from by simp [State.flag]] at this
  | atHL =>
    simp only [State.operand_atHL, readOperand_ind] at h
    rcases memRead_cases s.hl s with ⟨v, hr, he⟩ | ⟨hr, he⟩ <;> rw [he] at h
    · simp only [Res.bind_ok, writeOperand_ind] at h
      rcases memWrite_cases s.hl (inc8 v).r s.tick with ⟨m, hw, he⟩ | ⟨e, hw, he⟩ <;> rw [he] at h <;> cases h
      · exact .incHL v m s hr hw
      · exact .updateFault _ v _ e s (.inr (.inl ⟨rfl, rfl⟩)) hr hw
    · cases h
      exact .readFault _ s (.inr (.inr (.inr (.inl rfl)))) hr

theorem Effect.decSlot {x : Slot} {s t : State} (h : (decOperand x s).outcome = .next t) : Effect (.dec x) s t := by
  unfold decOperand at h
  cases x with
  | reg r =>
    cases h
    have := Effect.dec r s
    rwa [show s.flag .c = (s.setReg r (dec8 (s.reg r)).r).flag .c from by simp [State.flag]] at this
  | atHL =>
    simp only [State.operand_atHL, readOperand_ind] at h
    rcases memRead_cases s.hl s with ⟨v, hr, he⟩ | ⟨hr, he⟩ <;> rw [he] at h
    · simp only [Res.bind_ok, writeOperand_ind] at h
      rcases memWrite_cases s.hl (dec8 v).r s.tick with ⟨m, hw, he⟩ | ⟨e, hw, he⟩ <;> rw [he] at h <;> cases h
      · exact .decHL v m s hr hw
      · exact .updateFault _ v _ e s (.inr (.inr ⟨rfl, rfl⟩)) hr hw
    · cases h
      exact .readFault _ s (.inr (.inr (.inr (.inr rfl)))) hr

/-- Everything an instruction can do. -/
theorem effect_of_exec {i : Instr} {s t : State} (h : exec i s = .next t) : Effect i.form s t := by
  rw [exec_eq_form] at h
  generalize i.form = x at h
  cases x with
  | nop => cases h; exact .nop s
  | jp target => cases h; exact .jp target s
  | jpCond cc target =>
    simp only [formMeaning, jumpAbsoluteIf] at h
    cases hc : s.cond cc <;> simp only [hc, if_true, Bool.false_eq_true, if_false] at h <;> cases h
    · exact .jpNot cc target s hc
    · exact .jpTaken cc target s hc
  | jr disp => cases h; exact .jr disp s
  | jrCond cc disp =>
    simp only [formMeaning, jumpRelativeIf] at h
    cases hc : s.cond cc <;> simp only [hc, if_true, Bool.false_eq_true, if_false] at h <;> cases h
    · exact .jrNot cc disp s hc
    · exact .jrTaken cc disp s hc
  | jpHL => cases h; exact .jpHL s
  | ld dst src =>
    by_cases hd : dst = .atHL ∧ src = .atHL
    · obtain ⟨rfl, rfl⟩ := hd
      simp only [formMeaning, loadOrUnsupported] at h
      cases hp : s.config.opc76Policy <;> simp only [hp] at h
      · exact Effect.load (fun _ => hp) h
      · exact Effect.gap (.inr ⟨rfl, rfl, hp⟩) h
    · refine Effect.load (fun hh => absurd hh hd) ?_
      cases dst <;> cases src <;> first | exact h | exact absurd ⟨rfl, rfl⟩ hd
  | alu o src => exact Effect.aluSlot h
  | aluImm o n => cases h; exact .aluImm o n s
  | inc x => exact Effect.incSlot h
  | dec x => exact Effect.decSlot h
  | illegal op => cases h; exact .illegal op s
  | unsupported op => exact Effect.gap (.inl rfl) h

end Sys2Proof.Machine
end

