-- ==== Sys2Proof/Laws/PerInstr.lean ====
section
/-! SUPPORT. Facts about every instruction as syntax, one lemma per constructor. -/

namespace Sys2Proof.Laws

/-- What a row of the decode table makes of the immediate bytes it needs; `none` for another number of them. -/
def Row.instrOf : Row → List Byte → Option Instr
  | .plain i, [] => some i
  | .imm8 f, [n] => some (f n)
  | .imm16 f, [lo, hi] => some (f (compose16 lo hi))
  | _, _ => none

/-- The two bytes of a word compose to it again (00_scope.md R10). -/
theorem compose16_bytes (w : Word) : compose16 (w.extractLsb' 0 8) (w.extractLsb' 8 8) = w := by
  apply BitVec.eq_of_toNat_eq
  have := w.isLt
  simp [compose16, BitVec.extractLsb'_toNat, Nat.shiftRight_eq_div_pow]
  omega

/-- A well-formed instruction's opcode, by the bit patterns of 30_encoding.md R91, selects the row of R101 that gives it back
from its immediates. -/
def OpcodeRow.Statement (i : Instr) : Prop :=
  i.wf = true → Row.instrOf (rowOf i.form.opcode) i.form.immediates = some i

theorem OpcodeRow.nop : OpcodeRow.Statement (.nop) := fun _ => rfl
/-- The row of every opcode byte of the set is that opcode. -/
theorem OpcodeRow.unsupported_rows : ∀ op ∈ unsupportedOpcodes, Row.instrOf (rowOf op) [] = some (.unsupported op) := by
  simp only [unsupportedOpcodes, List.cons_append, List.nil_append, List.forall_mem_cons]
  repeat' apply And.intro
  all_goals first | rfl | (intro x hx; cases hx)

theorem OpcodeRow.unsupported (op : Byte) : OpcodeRow.Statement (.unsupported op) := fun h =>
  OpcodeRow.unsupported_rows op (by simpa [Instr.wf] using h)
theorem OpcodeRow.incB : OpcodeRow.Statement (.incB) := fun _ => rfl
theorem OpcodeRow.decB : OpcodeRow.Statement (.decB) := fun _ => rfl
theorem OpcodeRow.incC : OpcodeRow.Statement (.incC) := fun _ => rfl
theorem OpcodeRow.decC : OpcodeRow.Statement (.decC) := fun _ => rfl
theorem OpcodeRow.incD : OpcodeRow.Statement (.incD) := fun _ => rfl
theorem OpcodeRow.decD : OpcodeRow.Statement (.decD) := fun _ => rfl
theorem OpcodeRow.jr (disp : Byte) : OpcodeRow.Statement (.jr disp) := fun _ => rfl
theorem OpcodeRow.incE : OpcodeRow.Statement (.incE) := fun _ => rfl
theorem OpcodeRow.decE : OpcodeRow.Statement (.decE) := fun _ => rfl
theorem OpcodeRow.jrNZ (disp : Byte) : OpcodeRow.Statement (.jrNZ disp) := fun _ => rfl
theorem OpcodeRow.incH : OpcodeRow.Statement (.incH) := fun _ => rfl
theorem OpcodeRow.decH : OpcodeRow.Statement (.decH) := fun _ => rfl
theorem OpcodeRow.jrZ (disp : Byte) : OpcodeRow.Statement (.jrZ disp) := fun _ => rfl
theorem OpcodeRow.incL : OpcodeRow.Statement (.incL) := fun _ => rfl
theorem OpcodeRow.decL : OpcodeRow.Statement (.decL) := fun _ => rfl
theorem OpcodeRow.jrNC (disp : Byte) : OpcodeRow.Statement (.jrNC disp) := fun _ => rfl
theorem OpcodeRow.incAtHL : OpcodeRow.Statement (.incAtHL) := fun _ => rfl
theorem OpcodeRow.decAtHL : OpcodeRow.Statement (.decAtHL) := fun _ => rfl
theorem OpcodeRow.jrC (disp : Byte) : OpcodeRow.Statement (.jrC disp) := fun _ => rfl
theorem OpcodeRow.incA : OpcodeRow.Statement (.incA) := fun _ => rfl
theorem OpcodeRow.decA : OpcodeRow.Statement (.decA) := fun _ => rfl
theorem OpcodeRow.ldBB : OpcodeRow.Statement (.ldBB) := fun _ => rfl
theorem OpcodeRow.ldBC : OpcodeRow.Statement (.ldBC) := fun _ => rfl
theorem OpcodeRow.ldBD : OpcodeRow.Statement (.ldBD) := fun _ => rfl
theorem OpcodeRow.ldBE : OpcodeRow.Statement (.ldBE) := fun _ => rfl
theorem OpcodeRow.ldBH : OpcodeRow.Statement (.ldBH) := fun _ => rfl
theorem OpcodeRow.ldBL : OpcodeRow.Statement (.ldBL) := fun _ => rfl
theorem OpcodeRow.ldBAtHL : OpcodeRow.Statement (.ldBAtHL) := fun _ => rfl
theorem OpcodeRow.ldBA : OpcodeRow.Statement (.ldBA) := fun _ => rfl
theorem OpcodeRow.ldCB : OpcodeRow.Statement (.ldCB) := fun _ => rfl
theorem OpcodeRow.ldCC : OpcodeRow.Statement (.ldCC) := fun _ => rfl
theorem OpcodeRow.ldCD : OpcodeRow.Statement (.ldCD) := fun _ => rfl
theorem OpcodeRow.ldCE : OpcodeRow.Statement (.ldCE) := fun _ => rfl
theorem OpcodeRow.ldCH : OpcodeRow.Statement (.ldCH) := fun _ => rfl
theorem OpcodeRow.ldCL : OpcodeRow.Statement (.ldCL) := fun _ => rfl
theorem OpcodeRow.ldCAtHL : OpcodeRow.Statement (.ldCAtHL) := fun _ => rfl
theorem OpcodeRow.ldCA : OpcodeRow.Statement (.ldCA) := fun _ => rfl
theorem OpcodeRow.ldDB : OpcodeRow.Statement (.ldDB) := fun _ => rfl
theorem OpcodeRow.ldDC : OpcodeRow.Statement (.ldDC) := fun _ => rfl
theorem OpcodeRow.ldDD : OpcodeRow.Statement (.ldDD) := fun _ => rfl
theorem OpcodeRow.ldDE : OpcodeRow.Statement (.ldDE) := fun _ => rfl
theorem OpcodeRow.ldDH : OpcodeRow.Statement (.ldDH) := fun _ => rfl
theorem OpcodeRow.ldDL : OpcodeRow.Statement (.ldDL) := fun _ => rfl
theorem OpcodeRow.ldDAtHL : OpcodeRow.Statement (.ldDAtHL) := fun _ => rfl
theorem OpcodeRow.ldDA : OpcodeRow.Statement (.ldDA) := fun _ => rfl
theorem OpcodeRow.ldEB : OpcodeRow.Statement (.ldEB) := fun _ => rfl
theorem OpcodeRow.ldEC : OpcodeRow.Statement (.ldEC) := fun _ => rfl
theorem OpcodeRow.ldED : OpcodeRow.Statement (.ldED) := fun _ => rfl
theorem OpcodeRow.ldEE : OpcodeRow.Statement (.ldEE) := fun _ => rfl
theorem OpcodeRow.ldEH : OpcodeRow.Statement (.ldEH) := fun _ => rfl
theorem OpcodeRow.ldEL : OpcodeRow.Statement (.ldEL) := fun _ => rfl
theorem OpcodeRow.ldEAtHL : OpcodeRow.Statement (.ldEAtHL) := fun _ => rfl
theorem OpcodeRow.ldEA : OpcodeRow.Statement (.ldEA) := fun _ => rfl
theorem OpcodeRow.ldHB : OpcodeRow.Statement (.ldHB) := fun _ => rfl
theorem OpcodeRow.ldHC : OpcodeRow.Statement (.ldHC) := fun _ => rfl
theorem OpcodeRow.ldHD : OpcodeRow.Statement (.ldHD) := fun _ => rfl
theorem OpcodeRow.ldHE : OpcodeRow.Statement (.ldHE) := fun _ => rfl
theorem OpcodeRow.ldHH : OpcodeRow.Statement (.ldHH) := fun _ => rfl
theorem OpcodeRow.ldHL : OpcodeRow.Statement (.ldHL) := fun _ => rfl
theorem OpcodeRow.ldHAtHL : OpcodeRow.Statement (.ldHAtHL) := fun _ => rfl
theorem OpcodeRow.ldHA : OpcodeRow.Statement (.ldHA) := fun _ => rfl
theorem OpcodeRow.ldLB : OpcodeRow.Statement (.ldLB) := fun _ => rfl
theorem OpcodeRow.ldLC : OpcodeRow.Statement (.ldLC) := fun _ => rfl
theorem OpcodeRow.ldLD : OpcodeRow.Statement (.ldLD) := fun _ => rfl
theorem OpcodeRow.ldLE : OpcodeRow.Statement (.ldLE) := fun _ => rfl
theorem OpcodeRow.ldLH : OpcodeRow.Statement (.ldLH) := fun _ => rfl
theorem OpcodeRow.ldLL : OpcodeRow.Statement (.ldLL) := fun _ => rfl
theorem OpcodeRow.ldLAtHL : OpcodeRow.Statement (.ldLAtHL) := fun _ => rfl
theorem OpcodeRow.ldLA : OpcodeRow.Statement (.ldLA) := fun _ => rfl
theorem OpcodeRow.ldAtHLB : OpcodeRow.Statement (.ldAtHLB) := fun _ => rfl
theorem OpcodeRow.ldAtHLC : OpcodeRow.Statement (.ldAtHLC) := fun _ => rfl
theorem OpcodeRow.ldAtHLD : OpcodeRow.Statement (.ldAtHLD) := fun _ => rfl
theorem OpcodeRow.ldAtHLE : OpcodeRow.Statement (.ldAtHLE) := fun _ => rfl
theorem OpcodeRow.ldAtHLH : OpcodeRow.Statement (.ldAtHLH) := fun _ => rfl
theorem OpcodeRow.ldAtHLL : OpcodeRow.Statement (.ldAtHLL) := fun _ => rfl
theorem OpcodeRow.ldAtHLAtHL : OpcodeRow.Statement (.ldAtHLAtHL) := fun _ => rfl
theorem OpcodeRow.ldAtHLA : OpcodeRow.Statement (.ldAtHLA) := fun _ => rfl
theorem OpcodeRow.ldAB : OpcodeRow.Statement (.ldAB) := fun _ => rfl
theorem OpcodeRow.ldAC : OpcodeRow.Statement (.ldAC) := fun _ => rfl
theorem OpcodeRow.ldAD : OpcodeRow.Statement (.ldAD) := fun _ => rfl
theorem OpcodeRow.ldAE : OpcodeRow.Statement (.ldAE) := fun _ => rfl
theorem OpcodeRow.ldAH : OpcodeRow.Statement (.ldAH) := fun _ => rfl
theorem OpcodeRow.ldAL : OpcodeRow.Statement (.ldAL) := fun _ => rfl
theorem OpcodeRow.ldAAtHL : OpcodeRow.Statement (.ldAAtHL) := fun _ => rfl
theorem OpcodeRow.ldAA : OpcodeRow.Statement (.ldAA) := fun _ => rfl
theorem OpcodeRow.addAB : OpcodeRow.Statement (.addAB) := fun _ => rfl
theorem OpcodeRow.addAC : OpcodeRow.Statement (.addAC) := fun _ => rfl
theorem OpcodeRow.addAD : OpcodeRow.Statement (.addAD) := fun _ => rfl
theorem OpcodeRow.addAE : OpcodeRow.Statement (.addAE) := fun _ => rfl
theorem OpcodeRow.addAH : OpcodeRow.Statement (.addAH) := fun _ => rfl
theorem OpcodeRow.addAL : OpcodeRow.Statement (.addAL) := fun _ => rfl
theorem OpcodeRow.addAAtHL : OpcodeRow.Statement (.addAAtHL) := fun _ => rfl
theorem OpcodeRow.addAA : OpcodeRow.Statement (.addAA) := fun _ => rfl
theorem OpcodeRow.adcAB : OpcodeRow.Statement (.adcAB) := fun _ => rfl
theorem OpcodeRow.adcAC : OpcodeRow.Statement (.adcAC) := fun _ => rfl
theorem OpcodeRow.adcAD : OpcodeRow.Statement (.adcAD) := fun _ => rfl
theorem OpcodeRow.adcAE : OpcodeRow.Statement (.adcAE) := fun _ => rfl
theorem OpcodeRow.adcAH : OpcodeRow.Statement (.adcAH) := fun _ => rfl
theorem OpcodeRow.adcAL : OpcodeRow.Statement (.adcAL) := fun _ => rfl
theorem OpcodeRow.adcAAtHL : OpcodeRow.Statement (.adcAAtHL) := fun _ => rfl
theorem OpcodeRow.adcAA : OpcodeRow.Statement (.adcAA) := fun _ => rfl
theorem OpcodeRow.subAB : OpcodeRow.Statement (.subAB) := fun _ => rfl
theorem OpcodeRow.subAC : OpcodeRow.Statement (.subAC) := fun _ => rfl
theorem OpcodeRow.subAD : OpcodeRow.Statement (.subAD) := fun _ => rfl
theorem OpcodeRow.subAE : OpcodeRow.Statement (.subAE) := fun _ => rfl
theorem OpcodeRow.subAH : OpcodeRow.Statement (.subAH) := fun _ => rfl
theorem OpcodeRow.subAL : OpcodeRow.Statement (.subAL) := fun _ => rfl
theorem OpcodeRow.subAAtHL : OpcodeRow.Statement (.subAAtHL) := fun _ => rfl
theorem OpcodeRow.subAA : OpcodeRow.Statement (.subAA) := fun _ => rfl
theorem OpcodeRow.sbcAB : OpcodeRow.Statement (.sbcAB) := fun _ => rfl
theorem OpcodeRow.sbcAC : OpcodeRow.Statement (.sbcAC) := fun _ => rfl
theorem OpcodeRow.sbcAD : OpcodeRow.Statement (.sbcAD) := fun _ => rfl
theorem OpcodeRow.sbcAE : OpcodeRow.Statement (.sbcAE) := fun _ => rfl
theorem OpcodeRow.sbcAH : OpcodeRow.Statement (.sbcAH) := fun _ => rfl
theorem OpcodeRow.sbcAL : OpcodeRow.Statement (.sbcAL) := fun _ => rfl
theorem OpcodeRow.sbcAAtHL : OpcodeRow.Statement (.sbcAAtHL) := fun _ => rfl
theorem OpcodeRow.sbcAA : OpcodeRow.Statement (.sbcAA) := fun _ => rfl
theorem OpcodeRow.andAB : OpcodeRow.Statement (.andAB) := fun _ => rfl
theorem OpcodeRow.andAC : OpcodeRow.Statement (.andAC) := fun _ => rfl
theorem OpcodeRow.andAD : OpcodeRow.Statement (.andAD) := fun _ => rfl
theorem OpcodeRow.andAE : OpcodeRow.Statement (.andAE) := fun _ => rfl
theorem OpcodeRow.andAH : OpcodeRow.Statement (.andAH) := fun _ => rfl
theorem OpcodeRow.andAL : OpcodeRow.Statement (.andAL) := fun _ => rfl
theorem OpcodeRow.andAAtHL : OpcodeRow.Statement (.andAAtHL) := fun _ => rfl
theorem OpcodeRow.andAA : OpcodeRow.Statement (.andAA) := fun _ => rfl
theorem OpcodeRow.xorAB : OpcodeRow.Statement (.xorAB) := fun _ => rfl
theorem OpcodeRow.xorAC : OpcodeRow.Statement (.xorAC) := fun _ => rfl
theorem OpcodeRow.xorAD : OpcodeRow.Statement (.xorAD) := fun _ => rfl
theorem OpcodeRow.xorAE : OpcodeRow.Statement (.xorAE) := fun _ => rfl
theorem OpcodeRow.xorAH : OpcodeRow.Statement (.xorAH) := fun _ => rfl
theorem OpcodeRow.xorAL : OpcodeRow.Statement (.xorAL) := fun _ => rfl
theorem OpcodeRow.xorAAtHL : OpcodeRow.Statement (.xorAAtHL) := fun _ => rfl
theorem OpcodeRow.xorAA : OpcodeRow.Statement (.xorAA) := fun _ => rfl
theorem OpcodeRow.orAB : OpcodeRow.Statement (.orAB) := fun _ => rfl
theorem OpcodeRow.orAC : OpcodeRow.Statement (.orAC) := fun _ => rfl
theorem OpcodeRow.orAD : OpcodeRow.Statement (.orAD) := fun _ => rfl
theorem OpcodeRow.orAE : OpcodeRow.Statement (.orAE) := fun _ => rfl
theorem OpcodeRow.orAH : OpcodeRow.Statement (.orAH) := fun _ => rfl
theorem OpcodeRow.orAL : OpcodeRow.Statement (.orAL) := fun _ => rfl
theorem OpcodeRow.orAAtHL : OpcodeRow.Statement (.orAAtHL) := fun _ => rfl
theorem OpcodeRow.orAA : OpcodeRow.Statement (.orAA) := fun _ => rfl
theorem OpcodeRow.cpAB : OpcodeRow.Statement (.cpAB) := fun _ => rfl
theorem OpcodeRow.cpAC : OpcodeRow.Statement (.cpAC) := fun _ => rfl
theorem OpcodeRow.cpAD : OpcodeRow.Statement (.cpAD) := fun _ => rfl
theorem OpcodeRow.cpAE : OpcodeRow.Statement (.cpAE) := fun _ => rfl
theorem OpcodeRow.cpAH : OpcodeRow.Statement (.cpAH) := fun _ => rfl
theorem OpcodeRow.cpAL : OpcodeRow.Statement (.cpAL) := fun _ => rfl
theorem OpcodeRow.cpAAtHL : OpcodeRow.Statement (.cpAAtHL) := fun _ => rfl
theorem OpcodeRow.cpAA : OpcodeRow.Statement (.cpAA) := fun _ => rfl
theorem OpcodeRow.jpNZ (target : Word) : OpcodeRow.Statement (.jpNZ target) := fun _ =>
  congrArg (fun w => some (Instr.jpNZ w)) (compose16_bytes target)
theorem OpcodeRow.jp (target : Word) : OpcodeRow.Statement (.jp target) := fun _ =>
  congrArg (fun w => some (Instr.jp w)) (compose16_bytes target)
theorem OpcodeRow.addAImm (n : Byte) : OpcodeRow.Statement (.addAImm n) := fun _ => rfl
theorem OpcodeRow.jpZ (target : Word) : OpcodeRow.Statement (.jpZ target) := fun _ =>
  congrArg (fun w => some (Instr.jpZ w)) (compose16_bytes target)
theorem OpcodeRow.adcAImm (n : Byte) : OpcodeRow.Statement (.adcAImm n) := fun _ => rfl
theorem OpcodeRow.jpNC (target : Word) : OpcodeRow.Statement (.jpNC target) := fun _ =>
  congrArg (fun w => some (Instr.jpNC w)) (compose16_bytes target)
/-- The row of every opcode byte of the set is that opcode. -/
theorem OpcodeRow.illegal_rows : ∀ op ∈ illegalOpcodes, Row.instrOf (rowOf op) [] = some (.illegal op) := by
  simp only [illegalOpcodes, List.forall_mem_cons]
  repeat' apply And.intro
  all_goals first | rfl | (intro x hx; cases hx)

theorem OpcodeRow.illegal (op : Byte) : OpcodeRow.Statement (.illegal op) := fun h =>
  OpcodeRow.illegal_rows op (by simpa [Instr.wf] using h)
theorem OpcodeRow.subAImm (n : Byte) : OpcodeRow.Statement (.subAImm n) := fun _ => rfl
theorem OpcodeRow.jpC (target : Word) : OpcodeRow.Statement (.jpC target) := fun _ =>
  congrArg (fun w => some (Instr.jpC w)) (compose16_bytes target)
theorem OpcodeRow.sbcAImm (n : Byte) : OpcodeRow.Statement (.sbcAImm n) := fun _ => rfl
theorem OpcodeRow.andAImm (n : Byte) : OpcodeRow.Statement (.andAImm n) := fun _ => rfl
theorem OpcodeRow.jpHL : OpcodeRow.Statement (.jpHL) := fun _ => rfl
theorem OpcodeRow.xorAImm (n : Byte) : OpcodeRow.Statement (.xorAImm n) := fun _ => rfl
theorem OpcodeRow.orAImm (n : Byte) : OpcodeRow.Statement (.orAImm n) := fun _ => rfl
theorem OpcodeRow.cpAImm (n : Byte) : OpcodeRow.Statement (.cpAImm n) := fun _ => rfl

end Sys2Proof.Laws
end

