-- ==== Sys2Proof/Laws/Run.lean ====
section
/-! SUPPORT. What a run can do: where a bounded run stops, and that an ended run keeps its result. -/

namespace Sys2Proof.Machine

/-- A state in which the run has ended is final (10_state.md R32). -/
theorem runStep_ended {s : State} (h : s.runEnd ≠ none) : runStep s = s := by
  unfold runStep step
  unfold State.runEnd at h
  split at h
  · exact absurd rfl h
  all_goals simp [*]

theorem runSteps_ended {s : State} (h : s.runEnd ≠ none) (k : Nat) : runSteps k s = s := by
  induction k with
  | zero => rfl
  | succ k ih => rw [runSteps, runStep_ended h, ih]

theorem runSteps_add (m n : Nat) (s : State) : runSteps (m + n) s = runSteps n (runSteps m s) := by
  induction m generalizing s with
  | zero => rw [Nat.zero_add, runSteps]
  | succ m ih => rw [Nat.succ_add, runSteps, ih, runSteps]

/-- A run has one result: more steps change nothing once it has ended. -/
theorem runResult_mono {k : Nat} {s : State} {r : RunEnd × State} (h : runResult k s = some r) (n : Nat) :
    runResult (k + n) s = some r := by
  have he : (runSteps k s).runEnd ≠ none := by
    intro hn
    simp [runResult, hn] at h
  rw [runResult, runSteps_add, runSteps_ended he]
  exact h

/-- Everything a run bounded by an end address can answer: the state after the first `j` of at most `k` steps at which PC is
the end address or the run has ended. -/
theorem runUntil_eq_some {stop : Word} {k : Nat} {s t : State} :
    runUntil stop k s = some t ↔
      ∃ j ≤ k, t = runSteps j s ∧ t.boundReached stop = true ∧ ∀ i < j, (runSteps i s).boundReached stop = false := by
  induction k generalizing s with
  | zero =>
    rw [runUntil]
    constructor
    · intro h
      split at h
      · cases h
        exact ⟨0, le_rfl, rfl, ‹_›, fun _ h => absurd h (Nat.not_lt_zero _)⟩
      · cases h
    · rintro ⟨j, hj, rfl, h, -⟩
      obtain rfl : j = 0 := by omega
      exact if_pos h
  | succ k ih =>
    rw [runUntil]
    by_cases hs : s.boundReached stop = true
    · rw [if_pos hs]
      constructor
      · rintro ⟨⟩
        exact ⟨0, Nat.zero_le _, rfl, hs, fun _ h => absurd h (Nat.not_lt_zero _)⟩
      · rintro ⟨j, -, rfl, -, hlt⟩
        cases j with
        | zero => rfl
        | succ j => exact absurd (hs.symm.trans (hlt 0 j.succ_pos)) (by decide)
    · rw [if_neg hs, ih]
      constructor
      · rintro ⟨j, hj, rfl, hb, hlt⟩
        refine ⟨j + 1, Nat.succ_le_succ hj, rfl, hb, fun i hi => ?_⟩
        cases i with
        | zero => exact Bool.eq_false_iff.mpr hs
        | succ i => exact hlt i (Nat.lt_of_succ_lt_succ hi)
      · rintro ⟨j, hj, rfl, hb, hlt⟩
        cases j with
        | zero => exact absurd hb hs
        | succ j => exact ⟨j, Nat.le_of_succ_le_succ hj, rfl, hb, fun i hi => hlt (i + 1) (Nat.succ_lt_succ hi)⟩

/-- A run that ends at its `k`-th step, before PC was the end address at a step boundary, answers its final state. -/
theorem runUntil_ends {stop : Word} {k : Nat} {s : State} (h : (runSteps k s).runEnd ≠ none)
    (hb : ∀ i < k, (runSteps i s).boundReached stop = false) : runUntil stop k s = some (runSteps k s) :=
  runUntil_eq_some.mpr ⟨k, le_rfl, rfl, by simp [State.boundReached, Option.isSome_iff_ne_none.mpr h], hb⟩

/-- Everything a host run of `k + 1` steps that answers a state does first: one step to a next state. -/
theorem core_run_succ {M : Host.Core} {k : Nat} {s t : M.State} (h : M.run (k + 1) s = .next t) :
    ∃ s', M.step s = .next s' ∧ M.run k s' = .next t := by
  rw [Host.Core.run] at h
  split at h
  · exact ⟨_, ‹_›, h⟩
  · cases h
  · cases h

/-- Where the host's run of `k` steps answers a state, it is the same state. -/
theorem runSteps_of_core_run {k : Nat} {s t : State} (h : Sys2Proof.core.run k s = .next t) : runSteps k s = t := by
  induction k generalizing s with
  | zero =>
    cases h
    rfl
  | succ k ih =>
    obtain ⟨s', hs, hr⟩ := core_run_succ h
    have hs : step s = .next s' := hs
    rw [runSteps, runStep, hs]
    exact ih hr

end Sys2Proof.Machine
end

