-- ==== Sys2Proof/Laws/Step.lean ====
section
/-! SUPPORT. What a step does, by what its fetches give. -/

namespace Sys2Proof.Machine

theorem fetchInstr_plain {s : State} {op : Byte} {i : Instr} (h : s.mem.read s.pc = .ok op) (hr : rowOf op = .plain i) :
    fetchInstr s = .ok i { s with pc := s.pc + 1, mcycles := s.mcycles + 1 } := by
  rw [fetchInstr, fetchByte_ok h, Res.bind_ok, hr]

theorem fetchInstr_imm8 {s : State} {op n : Byte} {f : Byte → Instr} (h : s.mem.read s.pc = .ok op)
    (h1 : s.mem.read (s.pc + 1) = .ok n) (hr : rowOf op = .imm8 f) :
    fetchInstr s = .ok (f n) { s with pc := s.pc + 1 + 1, mcycles := s.mcycles + 1 + 1 } := by
  rw [fetchInstr, fetchByte_ok h, Res.bind_ok, hr]
  have hf := fetchByte_ok (s := { s with pc := s.pc + 1, mcycles := s.mcycles + 1 }) h1
  show (fetchByte { s with pc := s.pc + 1, mcycles := s.mcycles + 1 }).bind _ = _
  rw [hf, Res.bind_ok]

theorem fetchInstr_imm16 {s : State} {op lo hi : Byte} {f : Word → Instr} (h : s.mem.read s.pc = .ok op)
    (h1 : s.mem.read (s.pc + 1) = .ok lo) (h2 : s.mem.read (s.pc + 1 + 1) = .ok hi) (hr : rowOf op = .imm16 f) :
    fetchInstr s = .ok (f (compose16 lo hi)) { s with pc := s.pc + 1 + 1 + 1, mcycles := s.mcycles + 1 + 1 + 1 } := by
  rw [fetchInstr, fetchByte_ok h, Res.bind_ok, hr]
  have hf := fetchByte_ok (s := { s with pc := s.pc + 1, mcycles := s.mcycles + 1 }) h1
  have hg := fetchByte_ok (s := { s with pc := s.pc + 1 + 1, mcycles := s.mcycles + 1 + 1 }) h2
  show (fetchByte { s with pc := s.pc + 1, mcycles := s.mcycles + 1 }).bind _ = _
  rw [hf, Res.bind_ok]
  show (fetchByte { s with pc := s.pc + 1 + 1, mcycles := s.mcycles + 1 + 1 }).bind _ = _
  rw [hg, Res.bind_ok]

/-- Everything the fetches can do: they read the bytes of one instruction, or one of them fails (30_encoding.md R95). -/
theorem fetchInstr_cases (s : State) :
    (∃ op i, s.mem.read s.pc = .ok op ∧ rowOf op = .plain i ∧
      fetchInstr s = .ok i { s with pc := s.pc + 1, mcycles := s.mcycles + 1 }) ∨
    (∃ op n f, s.mem.read s.pc = .ok op ∧ s.mem.read (s.pc + 1) = .ok n ∧ rowOf op = .imm8 f ∧
      fetchInstr s = .ok (f n) { s with pc := s.pc + 1 + 1, mcycles := s.mcycles + 1 + 1 }) ∨
    (∃ op lo hi f, s.mem.read s.pc = .ok op ∧ s.mem.read (s.pc + 1) = .ok lo ∧ s.mem.read (s.pc + 1 + 1) = .ok hi ∧
      rowOf op = .imm16 f ∧
      fetchInstr s = .ok (f (compose16 lo hi)) { s with pc := s.pc + 1 + 1 + 1, mcycles := s.mcycles + 1 + 1 + 1 }) ∨
    (∃ a n, (a = s.pc ∧ n = 1 ∨ a = s.pc + 1 ∧ n = 2 ∨ a = s.pc + 1 + 1 ∧ n = 3) ∧
      s.mem.read a = .error (.outOfBounds a) ∧
      fetchInstr s = .raised { s with pc := a, mcycles := s.mcycles + n, status := .faulted (.outOfBounds a) }) := by
  rcases fetchByte_cases s with ⟨op, hop, hf⟩ | ⟨he, hf⟩
  case inr =>
    refine .inr (.inr (.inr ⟨s.pc, 1, .inl ⟨rfl, rfl⟩, he, ?_⟩))
    rw [fetchInstr, hf]
    rfl
  cases hr : rowOf op with
  | plain i => exact .inl ⟨op, i, hop, hr, fetchInstr_plain hop hr⟩
  | imm8 f =>
    rcases fetchByte_cases { s with pc := s.pc + 1, mcycles := s.mcycles + 1 } with ⟨n, hn, hg⟩ | ⟨he, hg⟩
    · exact .inr (.inl ⟨op, n, f, hop, hn, hr, fetchInstr_imm8 hop hn hr⟩)
    · refine .inr (.inr (.inr ⟨s.pc + 1, 2, .inr (.inl ⟨rfl, rfl⟩), he, ?_⟩))
      rw [fetchInstr, hf, Res.bind_ok, hr]
      show (fetchByte { s with pc := s.pc + 1, mcycles := s.mcycles + 1 }).bind _ = _
      rw [hg]
      rfl
  | imm16 f =>
    rcases fetchByte_cases { s with pc := s.pc + 1, mcycles := s.mcycles + 1 } with ⟨lo, hlo, hg⟩ | ⟨he, hg⟩
    case inr =>
      refine .inr (.inr (.inr ⟨s.pc + 1, 2, .inr (.inl ⟨rfl, rfl⟩), he, ?_⟩))
      rw [fetchInstr, hf, Res.bind_ok, hr]
      show (fetchByte { s with pc := s.pc + 1, mcycles := s.mcycles + 1 }).bind _ = _
      rw [hg]
      rfl
    rcases fetchByte_cases { s with pc := s.pc + 1 + 1, mcycles := s.mcycles + 1 + 1 } with ⟨hi, hhi, hk⟩ | ⟨he, hk⟩
    · exact .inr (.inr (.inl ⟨op, lo, hi, f, hop, hlo, hhi, hr, fetchInstr_imm16 hop hlo hhi hr⟩))
    · refine .inr (.inr (.inr ⟨s.pc + 1 + 1, 3, .inr (.inr ⟨rfl, rfl⟩), he, ?_⟩))
      rw [fetchInstr, hf, Res.bind_ok, hr]
      show (fetchByte { s with pc := s.pc + 1, mcycles := s.mcycles + 1 }).bind _ = _
      rw [hg, Res.bind_ok]
      show (fetchByte { s with pc := s.pc + 1 + 1, mcycles := s.mcycles + 1 + 1 }).bind _ = _
      rw [hk]
      rfl

/-- A step of a running core runs the instruction its fetches give, or ends with the fetch that failed. -/
theorem step_running {s : State} (h : s.status = .running) :
    step s =
      match fetchInstr s with
      | .ok i s1 => exec i s1
      | .raised s1 => .next s1 := by
  cases hf : fetchInstr s <;> simp only [step, h, hf]

theorem step_of_fetched {s s1 : State} {i : Instr} (h : s.status = .running) (hf : fetchInstr s = .ok i s1) :
    step s = exec i s1 := by
  rw [step_running h, hf]

theorem step_of_raised {s s1 : State} (h : s.status = .running) (hf : fetchInstr s = .raised s1) : step s = .next s1 := by
  rw [step_running h, hf]

/-- A step to a next state was made from a running core (60_exceptions.md R234). -/
theorem running_of_step {s t : State} (h : step s = .next t) : s.status = .running := by
  cases hs : s.status with
  | running => rfl
  | faulted x => simp [step, hs] at h
  | refused pc op => simp [step, hs] at h

end Sys2Proof.Machine
end

