-- ==== Sys2Proof/Tests/Slice0.lean ====
section
/-! SUPPORT. Own tests. Words are written out from the formats of 30_encoding.md section 1, expected results are taken from
the vectors of 95_test_vectors.md, and each obligation with hypotheses has a witness that meets them. -/

namespace Sys2Proof.Tests
open Sys2Proof Sys2Proof.Machine Sys2Proof.Claims

/-! ### WellFormed: an ill-formed term for each check -/

theorem test_wf_illegal_of_nop_refused : (Instr.illegal 0x00).wf = false := by decide
theorem test_wf_illegal_of_unsupported_refused : (Instr.illegal 0xCB).wf = false := by decide
theorem test_wf_unsupported_of_nop_refused : (Instr.unsupported 0x00).wf = false := by decide
theorem test_wf_unsupported_of_illegal_refused : (Instr.unsupported 0xD3).wf = false := by decide
theorem test_wf_unsupported_of_0x76_refused : (Instr.unsupported 0x76).wf = false := by decide
theorem test_wf_accepts : (Instr.illegal 0xD3).wf = true ∧ (Instr.unsupported 0xCB).wf = true ∧ Instr.ldAtHLAtHL.wf = true := by
  decide

/-! ### Decode: every constructor by a word written from its format -/

/-- What each one-byte word decodes to. -/
def decodes (ws : List Byte) : List (Except DecodeError (Instr × List Byte)) := ws.map fun w => decode [w]

/-- The answers of a list of one-byte instructions. -/
def answers (is : List Instr) : List (Except DecodeError (Instr × List Byte)) := is.map fun i => .ok (i, [])

/-- F_LD `01 ddd sss`, ddd = 000 (R91). -/
theorem test_decode_ld_B : decodes [0b01_000_000, 0b01_000_001, 0b01_000_010, 0b01_000_011, 0b01_000_100, 0b01_000_101, 0b01_000_110, 0b01_000_111] =
    answers [.ldBB, .ldBC, .ldBD, .ldBE, .ldBH, .ldBL, .ldBAtHL, .ldBA] := rfl
/-- F_LD `01 ddd sss`, ddd = 001 (R91). -/
theorem test_decode_ld_C : decodes [0b01_001_000, 0b01_001_001, 0b01_001_010, 0b01_001_011, 0b01_001_100, 0b01_001_101, 0b01_001_110, 0b01_001_111] =
    answers [.ldCB, .ldCC, .ldCD, .ldCE, .ldCH, .ldCL, .ldCAtHL, .ldCA] := rfl
/-- F_LD `01 ddd sss`, ddd = 010 (R91). -/
theorem test_decode_ld_D : decodes [0b01_010_000, 0b01_010_001, 0b01_010_010, 0b01_010_011, 0b01_010_100, 0b01_010_101, 0b01_010_110, 0b01_010_111] =
    answers [.ldDB, .ldDC, .ldDD, .ldDE, .ldDH, .ldDL, .ldDAtHL, .ldDA] := rfl
/-- F_LD `01 ddd sss`, ddd = 011 (R91). -/
theorem test_decode_ld_E : decodes [0b01_011_000, 0b01_011_001, 0b01_011_010, 0b01_011_011, 0b01_011_100, 0b01_011_101, 0b01_011_110, 0b01_011_111] =
    answers [.ldEB, .ldEC, .ldED, .ldEE, .ldEH, .ldEL, .ldEAtHL, .ldEA] := rfl
/-- F_LD `01 ddd sss`, ddd = 100 (R91). -/
theorem test_decode_ld_H : decodes [0b01_100_000, 0b01_100_001, 0b01_100_010, 0b01_100_011, 0b01_100_100, 0b01_100_101, 0b01_100_110, 0b01_100_111] =
    answers [.ldHB, .ldHC, .ldHD, .ldHE, .ldHH, .ldHL, .ldHAtHL, .ldHA] := rfl
/-- F_LD `01 ddd sss`, ddd = 101 (R91). -/
theorem test_decode_ld_L : decodes [0b01_101_000, 0b01_101_001, 0b01_101_010, 0b01_101_011, 0b01_101_100, 0b01_101_101, 0b01_101_110, 0b01_101_111] =
    answers [.ldLB, .ldLC, .ldLD, .ldLE, .ldLH, .ldLL, .ldLAtHL, .ldLA] := rfl
/-- F_LD `01 ddd sss`, ddd = 110 (R91). -/
theorem test_decode_ld_AtHL : decodes [0b01_110_000, 0b01_110_001, 0b01_110_010, 0b01_110_011, 0b01_110_100, 0b01_110_101, 0b01_110_110, 0b01_110_111] =
    answers [.ldAtHLB, .ldAtHLC, .ldAtHLD, .ldAtHLE, .ldAtHLH, .ldAtHLL, .ldAtHLAtHL, .ldAtHLA] := rfl
/-- F_LD `01 ddd sss`, ddd = 111 (R91). -/
theorem test_decode_ld_A : decodes [0b01_111_000, 0b01_111_001, 0b01_111_010, 0b01_111_011, 0b01_111_100, 0b01_111_101, 0b01_111_110, 0b01_111_111] =
    answers [.ldAB, .ldAC, .ldAD, .ldAE, .ldAH, .ldAL, .ldAAtHL, .ldAA] := rfl
/-- F_ALU `10 ooo sss`, ooo = 000 (R91, R94). -/
theorem test_decode_add : decodes [0b10_000_000, 0b10_000_001, 0b10_000_010, 0b10_000_011, 0b10_000_100, 0b10_000_101, 0b10_000_110, 0b10_000_111] =
    answers [.addAB, .addAC, .addAD, .addAE, .addAH, .addAL, .addAAtHL, .addAA] := rfl
/-- F_ALU `10 ooo sss`, ooo = 001 (R91, R94). -/
theorem test_decode_adc : decodes [0b10_001_000, 0b10_001_001, 0b10_001_010, 0b10_001_011, 0b10_001_100, 0b10_001_101, 0b10_001_110, 0b10_001_111] =
    answers [.adcAB, .adcAC, .adcAD, .adcAE, .adcAH, .adcAL, .adcAAtHL, .adcAA] := rfl
/-- F_ALU `10 ooo sss`, ooo = 010 (R91, R94). -/
theorem test_decode_sub : decodes [0b10_010_000, 0b10_010_001, 0b10_010_010, 0b10_010_011, 0b10_010_100, 0b10_010_101, 0b10_010_110, 0b10_010_111] =
    answers [.subAB, .subAC, .subAD, .subAE, .subAH, .subAL, .subAAtHL, .subAA] := rfl
/-- F_ALU `10 ooo sss`, ooo = 011 (R91, R94). -/
theorem test_decode_sbc : decodes [0b10_011_000, 0b10_011_001, 0b10_011_010, 0b10_011_011, 0b10_011_100, 0b10_011_101, 0b10_011_110, 0b10_011_111] =
    answers [.sbcAB, .sbcAC, .sbcAD, .sbcAE, .sbcAH, .sbcAL, .sbcAAtHL, .sbcAA] := rfl
/-- F_ALU `10 ooo sss`, ooo = 100 (R91, R94). -/
theorem test_decode_and : decodes [0b10_100_000, 0b10_100_001, 0b10_100_010, 0b10_100_011, 0b10_100_100, 0b10_100_101, 0b10_100_110, 0b10_100_111] =
    answers [.andAB, .andAC, .andAD, .andAE, .andAH, .andAL, .andAAtHL, .andAA] := rfl
/-- F_ALU `10 ooo sss`, ooo = 101 (R91, R94). -/
theorem test_decode_xor : decodes [0b10_101_000, 0b10_101_001, 0b10_101_010, 0b10_101_011, 0b10_101_100, 0b10_101_101, 0b10_101_110, 0b10_101_111] =
    answers [.xorAB, .xorAC, .xorAD, .xorAE, .xorAH, .xorAL, .xorAAtHL, .xorAA] := rfl
/-- F_ALU `10 ooo sss`, ooo = 110 (R91, R94). -/
theorem test_decode_or : decodes [0b10_110_000, 0b10_110_001, 0b10_110_010, 0b10_110_011, 0b10_110_100, 0b10_110_101, 0b10_110_110, 0b10_110_111] =
    answers [.orAB, .orAC, .orAD, .orAE, .orAH, .orAL, .orAAtHL, .orAA] := rfl
/-- F_ALU `10 ooo sss`, ooo = 111 (R91, R94). -/
theorem test_decode_cp : decodes [0b10_111_000, 0b10_111_001, 0b10_111_010, 0b10_111_011, 0b10_111_100, 0b10_111_101, 0b10_111_110, 0b10_111_111] =
    answers [.cpAB, .cpAC, .cpAD, .cpAE, .cpAH, .cpAL, .cpAAtHL, .cpAA] := rfl
/-- `00 ttt 100` (R91). -/
theorem test_decode_inc : decodes [0b00_000_100, 0b00_001_100, 0b00_010_100, 0b00_011_100, 0b00_100_100, 0b00_101_100, 0b00_110_100, 0b00_111_100] =
    answers [.incB, .incC, .incD, .incE, .incH, .incL, .incAtHL, .incA] := rfl
/-- `00 ttt 101` (R91). -/
theorem test_decode_dec : decodes [0b00_000_101, 0b00_001_101, 0b00_010_101, 0b00_011_101, 0b00_100_101, 0b00_101_101, 0b00_110_101, 0b00_111_101] =
    answers [.decB, .decC, .decD, .decE, .decH, .decL, .decAtHL, .decA] := rfl
/-- NOP is 0x00 and JP HL 0xE9 (R101). -/
theorem test_decode_nop_jpHL : decodes [0b00000000, 0b11101001] =
    answers [.nop, .jpHL] := rfl
/-- `11 ooo 110` and n8 (R91, R94). -/
theorem test_decode_alu_imm :
    decode [0b11_000_110, 0x0F] = .ok (.addAImm 0x0F, []) ∧
    decode [0b11_001_110, 0x0F] = .ok (.adcAImm 0x0F, []) ∧
    decode [0b11_010_110, 0x0F] = .ok (.subAImm 0x0F, []) ∧
    decode [0b11_011_110, 0x0F] = .ok (.sbcAImm 0x0F, []) ∧
    decode [0b11_100_110, 0x0F] = .ok (.andAImm 0x0F, []) ∧
    decode [0b11_101_110, 0x0F] = .ok (.xorAImm 0x0F, []) ∧
    decode [0b11_110_110, 0x0F] = .ok (.orAImm 0x0F, []) ∧
    decode [0b11_111_110, 0x0F] = .ok (.cpAImm 0x0F, []) :=
  ⟨rfl, rfl, rfl, rfl, rfl, rfl, rfl, rfl⟩
/-- 0x18 and `001 cc 000` with e8; the rest of the bytes is left over (R91, R93). -/
theorem test_decode_jr :
    decode [0b00011000, 0xFE, 0x07] = .ok (.jr 0xFE, [0x07]) ∧
    decode [0b001_00_000, 0x80] = .ok (.jrNZ 0x80, []) ∧
    decode [0b001_01_000, 0x80] = .ok (.jrZ 0x80, []) ∧
    decode [0b001_10_000, 0x80] = .ok (.jrNC 0x80, []) ∧
    decode [0b001_11_000, 0x80] = .ok (.jrC 0x80, []) :=
  ⟨rfl, rfl, rfl, rfl, rfl⟩
/-- 0xC3 and `110 cc 010` with a16, low byte first (R91, R93, R96). -/
theorem test_decode_jp :
    decode [0b11000011, 0x34, 0x12, 0x07] = .ok (.jp 0x1234, [0x07]) ∧
    decode [0b110_00_010, 0xFF, 0x00] = .ok (.jpNZ 0x00FF, []) ∧
    decode [0b110_01_010, 0xFF, 0x00] = .ok (.jpZ 0x00FF, []) ∧
    decode [0b110_10_010, 0xFF, 0x00] = .ok (.jpNC 0x00FF, []) ∧
    decode [0b110_11_010, 0xFF, 0x00] = .ok (.jpC 0x00FF, []) :=
  ⟨rfl, rfl, rfl, rfl, rfl⟩
/-- The eleven illegal opcodes (R103). -/
theorem test_decode_illegal : decodes [0xD3, 0xDB, 0xDD, 0xE3, 0xE4, 0xEB, 0xEC, 0xED, 0xF4, 0xFC, 0xFD] =
    answers [.illegal 0xD3, .illegal 0xDB, .illegal 0xDD, .illegal 0xE3, .illegal 0xE4, .illegal 0xEB, .illegal 0xEC, .illegal 0xED, .illegal 0xF4, .illegal 0xFC, .illegal 0xFD] := rfl
/-- Unsupported opcodes, one byte each (R104, R107). -/
theorem test_decode_unsupported : decodes [0x01, 0x02, 0x07, 0x08, 0x10, 0x27, 0x3E, 0xC0, 0xC9, 0xCB, 0xF3, 0xFB, 0xFF] =
    answers [.unsupported 0x01, .unsupported 0x02, .unsupported 0x07, .unsupported 0x08, .unsupported 0x10, .unsupported 0x27, .unsupported 0x3E, .unsupported 0xC0, .unsupported 0xC9, .unsupported 0xCB, .unsupported 0xF3, .unsupported 0xFB, .unsupported 0xFF] := rfl
/-- Lists that end too early are rejected by name. -/
theorem test_decode_truncated : decode [] = .error .noOpcode ∧ decode [0xC6] = .error (.immediateMissing 0xC6) ∧
    decode [0xC3, 0x34] = .error (.immediateMissing 0xC3) := ⟨rfl, rfl, rfl⟩
theorem test_encode : encode (.jp 0x1234) = [0xC3, 0x34, 0x12] ∧ encode (.jrC 0xFC) = [0x38, 0xFC] ∧
    encode .ldHAtHL = [0b01_100_110] ∧ encode (.xorAImm 0x05) = [0xEE, 0x05] ∧ encode .decL = [0b00_101_101] := ⟨rfl, rfl, rfl, rfl, rfl⟩
theorem test_decodeTableWord : decodeTableWord 8 0x45 = some .ldBL ∧ decodeTableWord 24 0x1234C3 = some (.jp 0x1234) ∧
    decodeTableWord 8 0xC3 = some (.jp 0x0000) ∧ decodeTableWord 16 0xFE18 = some (.jr 0xFE) := ⟨rfl, rfl, rfl, rfl⟩

/-! ### One step, results of 95_test_vectors.md -/

/-- The start state of the vectors: registers zero, two banks of external RAM, the bytes at 0x0100. -/
def start (b0 b1 b2 : Byte) : State :=
  let s := loadAtPc State.reset b0 b1 b2
  { s with a := 0, b := 0, c := 0, d := 0, e := 0, f := 0, h := 0, l := 0, mem := { s.mem with mEram := 2 } }

/-- `s` with a byte stored in the cell `a` reaches. -/
def poke (s : State) (a : Word) (v : Byte) : State := { s with mem := s.mem.load a v }

/-- The state after one step. -/
def after (s : State) : State :=
  match step s with
  | .next t => t
  | .fault _ => s
  | .refused _ => s

/-- AL3. -/
theorem test_AL3_ADD :
    let t := after { start 0x80 0 0 with a := 0xFF, b := 0x01, f := 0 }
    t.a = 0x00 ∧ t.f = 0xB0 ∧ t.b = 0x01 ∧ t.pc = 0x0101 ∧ t.mcycles = 1 := by decide
/-- AL9. -/
theorem test_AL9_ADC :
    let t := after { start 0x88 0 0 with a := 0x0F, b := 0x00, f := 16 }
    t.a = 0x10 ∧ t.f = 0x20 ∧ t.b = 0x00 ∧ t.pc = 0x0101 ∧ t.mcycles = 1 := by decide
/-- AL18. -/
theorem test_AL18_SUB :
    let t := after { start 0x90 0 0 with a := 0x3E, b := 0x40, f := 0 }
    t.a = 0xFE ∧ t.f = 0x50 ∧ t.b = 0x40 ∧ t.pc = 0x0101 ∧ t.mcycles = 1 := by decide
/-- AL25. -/
theorem test_AL25_SBC :
    let t := after { start 0x98 0 0 with a := 0x00, b := 0x00, f := 16 }
    t.a = 0xFF ∧ t.f = 0x70 ∧ t.b = 0x00 ∧ t.pc = 0x0101 ∧ t.mcycles = 1 := by decide
/-- AL29. -/
theorem test_AL29_AND :
    let t := after { start 0xA0 0 0 with a := 0x5A, b := 0x00, f := 16 }
    t.a = 0x00 ∧ t.f = 0xA0 ∧ t.b = 0x00 ∧ t.pc = 0x0101 ∧ t.mcycles = 1 := by decide
/-- AL31. -/
theorem test_AL31_XOR :
    let t := after { start 0xA8 0 0 with a := 0xFF, b := 0xFF, f := 16 }
    t.a = 0x00 ∧ t.f = 0x80 ∧ t.b = 0xFF ∧ t.pc = 0x0101 ∧ t.mcycles = 1 := by decide
/-- AL34. -/
theorem test_AL34_OR :
    let t := after { start 0xB0 0 0 with a := 0x5A, b := 0x0F, f := 0 }
    t.a = 0x5F ∧ t.f = 0x00 ∧ t.b = 0x0F ∧ t.pc = 0x0101 ∧ t.mcycles = 1 := by decide
/-- AL39. -/
theorem test_AL39_CP :
    let t := after { start 0xB8 0 0 with a := 0x00, b := 0xFF, f := 16 }
    t.a = 0x00 ∧ t.f = 0x70 ∧ t.b = 0xFF ∧ t.pc = 0x0101 ∧ t.mcycles = 1 := by decide
/-- AL11 and AL24 under the three modes. -/
theorem test_carry_modes :
    ((add8 .separate 0x01 0xFF true).h, (add8 .separate 0x01 0xFF true).c) = (true, true) ∧
    ((add8 .incrementedOperand 0x01 0xFF true).h, (add8 .incrementedOperand 0x01 0xFF true).c) = (false, true) ∧
    ((add8 .incrementedOperandWrapped 0x01 0xFF true).h, (add8 .incrementedOperandWrapped 0x01 0xFF true).c) = (false, false) ∧
    ((sub8 .separate 0x05 0xFF true).h, (sub8 .separate 0x05 0xFF true).c) = (true, true) ∧
    ((sub8 .incrementedOperand 0x05 0xFF true).h, (sub8 .incrementedOperand 0x05 0xFF true).c) = (false, true) ∧
    ((sub8 .incrementedOperandWrapped 0x05 0xFF true).h, (sub8 .incrementedOperandWrapped 0x05 0xFF true).c) = (false, false) ∧
    (add8 .incrementedOperandWrapped 0x01 0xFF true).r = 0x01 ∧ (sub8 .separate 0x05 0xFF true).r = 0x05 := by decide
/-- AM4. -/
theorem test_AM4_SBC_atHL :
    let t := after (poke { start 0x9E 0 0 with a := 0xAC, h := 0xC0, f := 0x10 } 0xC000 0x6C)
    t.a = 0x3F ∧ t.f = 0x60 ∧ t.pc = 0x0101 ∧ t.mcycles = 2 := by decide
/-- AM16. -/
theorem test_AM16_CP_imm :
    let t := after { start 0xFE 0x0F 0 with a := 0x31, f := 0x10 }
    t.a = 0x31 ∧ t.f = 0x60 ∧ t.pc = 0x0102 ∧ t.mcycles = 2 := by decide
/-- AM22. -/
theorem test_AM22_ADD_prohibited :
    let t := after { start 0x86 0 0 with h := 0xFE, l := 0xA0, f := 0x30 }
    t.a = 0x00 ∧ t.f = 0x80 ∧ t.mcycles = 2 := by decide
/-- AM23. -/
theorem test_AM23_ADD_absent :
    let t := after { loadAtPc State.reset 0x86 0 0 with a := 1, h := 0xA0, l := 0, f := 0x30 }
    t.a = 1 ∧ t.f = 0x30 ∧ t.pc = 0x0101 ∧ t.status = .faulted (.outOfBounds 0xA000) ∧ t.mcycles = 2 := by decide
/-- LD6. -/
theorem test_LD6_L_from_atHL :
    let t := after (poke { start 0x6E 0 0 with h := 0xC0, l := 0xFF } 0xC0FF 0x12)
    t.l = 0x12 ∧ t.h = 0xC0 ∧ t.mcycles = 2 := by decide
/-- LD3. -/
theorem test_LD3_H_from_E :
    let t := after { start 0x63 0 0 with e := 0x99 }
    t.h = 0x99 ∧ t.e = 0x99 ∧ t.mcycles = 1 := by decide
/-- LD10. -/
theorem test_LD10_store_and_mirror :
    let t := after { start 0x77 0 0 with h := 0xC1, l := 0x23, a := 0x5A }
    t.mem.read 0xC123 = .ok 0x5A ∧ t.mem.read 0xE123 = .ok 0x5A ∧ t.mem.wf = true ∧ t.mcycles = 2 := by decide
/-- LD13. -/
theorem test_LD13_store_to_IE :
    let t := after { start 0x77 0 0 with h := 0xFF, l := 0xFF, a := 0x1F }
    t.mem.ie = [(0, 0x1F)] ∧ t.status = .running := by decide
/-- LD14. -/
theorem test_LD14_store_to_ROM :
    let t := after { start 0x77 0 0 with h := 0x20, a := 0x01 }
    t.status = .faulted (.readOnlyWrite 0x2000) ∧ t.pc = 0x0101 ∧ t.mcycles = 2 := by decide
/-- LD17. -/
theorem test_LD17_store_to_eram :
    let t := after { start 0x77 0 0 with h := 0xBF, l := 0xFF, a := 0x66 }
    t.mem.eram = [(16383, 0x66)] := by decide
/-- LD18. -/
theorem test_LD18_opcode_0x76 :
    let t := after (poke { start 0x76 0 0 with h := 0xC0 } 0xC000 0x12)
    t.mem.read 0xC000 = .ok 0x12 ∧ t.status = .running ∧ t.mcycles = 3 := by decide
/-- LD21. -/
theorem test_LD21_opcode_0x76_unsupported :
    let t := after { start 0x76 0 0 with config := { Config.defaults with opc76Policy := .unsupported } }
    t.unsupportedSeen = some (0x0100, 0x76) ∧ t.pc = 0x0101 ∧ t.mcycles = 1 := by decide
/-- The start of CT rows: JP 0x0200. -/
theorem test_CT1_JP :
    let t := after (start 0xC3 0x00 0x02)
    t.pc = 0x0200 ∧ t.mcycles = 4 := by decide
/-- CT11. -/
theorem test_CT11_JP_C_not_taken :
    let t := after (start 0xDA 0x00 0x02)
    t.pc = 0x0103 ∧ t.mcycles = 3 := by decide
/-- CT15. -/
theorem test_CT15_JR_back :
    let t := after (start 0x18 0x80 0)
    t.pc = 0x0082 ∧ t.mcycles = 3 := by decide
/-- CT17. -/
theorem test_CT17_JR_NZ_taken :
    let t := after (start 0x20 0xFC 0)
    t.pc = 0x00FE ∧ t.mcycles = 3 := by decide
/-- CT25. -/
theorem test_CT25_JP_HL :
    let t := after { start 0xE9 0 0 with h := 0xC0, l := 0x10 }
    t.pc = 0xC010 ∧ t.mcycles = 1 := by decide
/-- CT27. -/
theorem test_CT27_JR_across_the_top :
    let t := after { poke (poke (start 0 0 0) 0xFFFE 0x18) 0xFFFF 0x01 with pc := 0xFFFE }
    t.pc = 0x0001 ∧ t.mcycles = 3 := by decide
/-- ID2. -/
theorem test_ID2_INC_keeps_C :
    let t := after { start 0x04 0 0 with b := 0xFF, f := 0x10 }
    t.b = 0x00 ∧ t.f = 0xB0 := by decide
/-- ID7. -/
theorem test_ID7_DEC_keeps_C :
    let t := after { start 0x15 0 0 with f := 0x10 }
    t.d = 0xFF ∧ t.f = 0x70 := by decide
/-- ID11. -/
theorem test_ID11_INC_atHL :
    let t := after (poke { start 0x34 0 0 with h := 0xFF, l := 0x90, f := 0x10 } 0xFF90 0xFF)
    t.f = 0xB0 ∧ t.mem.hram = [] ∧ t.mcycles = 3 := by decide
/-- ID15. -/
theorem test_ID15_DEC_prohibited :
    let t := after { start 0x35 0 0 with h := 0xFE, l := 0xB0 }
    t.status = .faulted (.prohibitedRegion 0xFEB0) ∧ t.f = 0x00 ∧ t.mcycles = 3 := by decide
/-- IU1. -/
theorem test_IU1_illegal :
    let t := after (start 0xD3 0 0)
    t.status = .faulted (.illegalOpcode 0x0100 0xD3) ∧ t.pc = 0x0101 ∧ t.mcycles = 1 := by decide
/-- IU12. -/
theorem test_IU12_marker :
    let t := after (start 0x01 0x34 0x12)
    t.unsupportedSeen = some (0x0100, 0x01) ∧ t.pc = 0x0101 ∧ t.status = .running := by decide
/-- IU16. -/
theorem test_IU16_refuse :
    let t := after { start 0xCB 0 0 with config := { Config.defaults with unsupportedPolicy := .refuse } }
    t.status = .refused 0x0100 0xCB ∧ t.pc = 0x0101 := by decide
/-- IU20. -/
theorem test_IU20_prohibited_runs_NOP :
    let t := after { start 0 0 0 with pc := 0xFEA0 }
    t.pc = 0xFEA1 ∧ t.mcycles = 1 := by decide
/-- R120. -/
theorem test_NOP :
    let t := after (start 0x00 0 0)
    t.pc = 0x0101 ∧ t.mcycles = 1 ∧ t.status = .running := by decide
/-- S3: PC and ticks as the source counts them, after the next opcode fetch. -/
theorem test_S3_harness :
    let t := harness { start 0x80 0 0 with a := 172, b := 108 }
    t.a = 24 ∧ t.f = 0x30 ∧ t.pc = 0x0102 ∧ t.mcycles = 2 := by decide
/-- R38, D17: a run whose last allowed step raises answers the error and the final state, in each form of a bounded run. -/
theorem test_run_ends_at_its_last_step :
    let s := start 0x00 0xD3 0
    runSteps 2 s = after (after s) ∧ runUntil 0x0150 2 s = some (after (after s)) ∧
    runResult 2 s = some (.faulted (.illegalOpcode 0x0101 0xD3), after (after s)) ∧
    runUntil 0x0150 1 s = none ∧ runResult 1 s = none := by decide
/-- R38, D17: the same of a refused step. -/
theorem test_run_refused_at_its_last_step :
    let s := { start 0xCB 0 0 with config := { Config.defaults with unsupportedPolicy := .refuse } }
    runUntil 0x0150 1 s = some (after s) ∧ runResult 1 s = some (.refused 0x0100 0xCB, after s) := by decide
/-- D17 (c) and 95_test_vectors.md section 9: a run stops at the first boundary at the end address, and JR -2 never ends. -/
theorem test_run_end_address :
    let s := start 0x00 0x18 0xFE
    runUntil 0x0101 3 s = some (after s) ∧ runUntil 0x0103 3 s = none ∧ runResult 3 s = none := by decide
/-- A run from reset with nothing loaded: the first fetch finds no ROM byte (log entry 5). -/
theorem test_reset_has_no_program : (after State.reset).status = .faulted (.outOfBounds 0x0100) := by decide
/-- No step follows a raise or a refusal. -/
theorem test_terminal : step { State.reset with status := .faulted (.illegalOpcode 0x0100 0xD3) } = .fault (.illegalOpcode 0x0100 0xD3) ∧
    step { State.reset with status := .refused 0x0100 0xCB } = .refused (.unsupportedOpcode 0x0100 0xCB) := ⟨rfl, rfl⟩
theorem test_withFetchWord_runs_first : step (State.reset.withFetchWord 16 0x05C6) =
    exec (.addAImm 0x05) { State.reset.withFetchWord 16 0x05C6 with pc := 0x0102, mcycles := 2 } := rfl

/-! ### Witnesses: each obligation's hypotheses are met -/

theorem witness_BitPrimitivesComposeAndInsert : (0 : Nat) + 8 ≤ 8 ∧ (3 : Nat) + 5 ≤ 8 ∧ (8 : Nat) < 4 + 5 := by decide
theorem witness_RegisterAndConditionCodes : (6 = 6 ∨ 7 < 6) ∧ (8 = 6 ∨ 7 < 8) ∧ 3 < 4 := by decide
theorem witness_FlagWritesTouchOnlyTheirBits : (7 : Nat) < 8 ∧ Flag.z.bit = 7 ∧ (4 : Nat) < 8 ∧ Flag.c.bit = 4 := by decide
theorem witness_AddSubModesAgreeWithoutCarry : (0x0E : Byte).toNat % 16 ≠ 0xF ∧ (0xFF : Byte).toNat % 16 = 0xF ∧
    (0x0F : Byte).toNat % 16 = 0xF ∧ (0xFE : Byte) ≠ 0xFF := by decide
theorem witness_OperandResolver : FieldOffset.low.code 0x46 = 6 ∧ FieldOffset.high.code 0x70 = 6 ∧
    Reg8.a.code = FieldOffset.high.code 0x78 ∧ Reg8.b.code = FieldOffset.low.code 0x78 := by decide
/-- The first and last address of every row fall in that row, so every clause has its addresses and no address has two. -/
theorem witness_AddressDecodeTable :
    [0x0000, 0x3FFF, 0x4000, 0x7FFF, 0x8000, 0x9FFF, 0xA000, 0xBFFF, 0xC000, 0xCFFF, 0xD000, 0xDFFF, 0xE000, 0xEFFF, 0xF000,
      0xFDFF, 0xFE00, 0xFE9F, 0xFEA0, 0xFEFF, 0xFF00, 0xFF7F, 0xFF80, 0xFFFE, 0xFFFF].map (start 0 0 0).mem.cellOf =
    [some (.rom, 0), some (.rom, 0x3FFF), some (.rom, 0x4000), some (.rom, 0x7FFF), some (.vram, 0), some (.vram, 0x1FFF),
      some (.eram, 0x2000), some (.eram, 0x3FFF), some (.wram, 0), some (.wram, 0xFFF), some (.wram, 0x1000),
      some (.wram, 0x1FFF), some (.wram, 0), some (.wram, 0xFFF), some (.wram, 0x1000), some (.wram, 0x1DFF), some (.oam, 0),
      some (.oam, 0x9F), none, none, some (.io, 0), some (.io, 0x7F), some (.hram, 0), some (.hram, 0x7E), some (.ie, 0)] := by
  decide
/-- A cell that exists and one that does not, for a read. -/
theorem witness_MemReadRule : (start 0 0 0).mem.cellOf 0x0102 = some (.rom, 0x0102) ∧ 0x0102 < (start 0 0 0).mem.size .rom ∧
    (start 0 0 0).mem.cellOf 0x0103 = some (.rom, 0x0103) ∧ ¬ 0x0103 < (start 0 0 0).mem.size .rom ∧
    0xFEA0 ≤ (0xFEA0 : Word).toNat ∧ (0xFEFF : Word).toNat ≤ 0xFEFF := by decide
/-- The same for a write, and the two refused windows. -/
theorem witness_MemWriteRule : (start 0 0 0).mem.cellOf 0xBFFF = some (.eram, 0x3FFF) ∧ 0x3FFF < (start 0 0 0).mem.size .eram ∧
    State.reset.mem.cellOf 0xA000 = some (.eram, 0x2000) ∧ ¬ 0x2000 < State.reset.mem.size .eram ∧
    (0x7FFF : Word).toNat ≤ 0x7FFF ∧ 0x8000 ≤ (0x8000 : Word).toNat ∧ 0xFEA0 ≤ (0xFEA0 : Word).toNat ∧
    (0xFEFF : Word).toNat ≤ 0xFEFF := by decide
theorem witness_ReadAfterWrite : State.reset.mem.wf = true ∧
    State.reset.mem.write 0xC000 0x12 = .ok { State.reset.mem with wram := [(0, 0x12)] } ∧
    State.reset.mem.cellOf 0xE000 = State.reset.mem.cellOf 0xC000 ∧ State.reset.mem.cellOf 0xC001 ≠ State.reset.mem.cellOf 0xC000 :=
  by decide
theorem witness_MirrorWindowsReadTheSameCells : (0xFFF : Nat) ≤ 0xFFF ∧ (0xDFF : Nat) ≤ 0xDFF ∧ State.reset.mem.wramBank < 8 := by
  decide
theorem witness_ProhibitedRegionReadsZeroRunsNop : (0xFEA0 ≤ (0xFEFF : Word).toNat ∧ (0xFEFF : Word).toNat ≤ 0xFEFF) ∧
    ({ State.reset with pc := 0xFEFF } : State).status = .running ∧ ({ State.reset with pc := 0xFEFF } : State).pc = 0xFEFF := by
  decide
theorem witness_ReadableAddresses : State.reset.mem.banksFixed = true ∧ ¬ (∃ v, State.reset.mem.read 0x0000 = .ok v) ∧
    (0xA000 ≤ (0xBFFF : Word).toNat ∧ (0xBFFF : Word).toNat ≤ 0xBFFF) ∧ State.reset.mem.mEram ≤ 1 :=
  ⟨by decide, fun ⟨_, h⟩ => (by cases h), by decide, by decide⟩
/-- A one-byte image; two external banks, then one; the windows that start as zeros, at their ends. -/
theorem witness_ConstructionMemoryContents :
    ((0x0000 : Word).toNat < ([0x3C] : List Byte).length) ∧ (([0x3C] : List Byte).length ≤ (0x0001 : Word).toNat) ∧
    (0xA000 ≤ (0xA000 : Word).toNat ∧ (0xBFFF : Word).toNat ≤ 0xBFFF) ∧
    2 ≤ ({ Construction.unloaded with mEram := 2 } : Construction).mEram ∧ Construction.unloaded.mEram ≤ 1 ∧
    0x8000 ≤ (0x8000 : Word).toNat ∧ (0x9FFF : Word).toNat ≤ 0x9FFF ∧ 0xC000 ≤ (0xC000 : Word).toNat ∧
    (0xFFFE : Word).toNat ≤ 0xFFFE := by decide
theorem witness_HeaderSuppliesExternalRamBanks :
    ((2 : Byte) ≠ 0 ∧ (2 : Byte) ≠ 1 ∧ (2 : Byte) ≠ 3 ∧ (2 : Byte) ≠ 4 ∧ (2 : Byte) ≠ 5) ∧
    0x0149 < ({ Construction.unloaded with romImage := List.replicate 0x014A 0x03 } : Construction).romImage.length :=
  ⟨by decide, by rw [List.length_replicate]; decide⟩
theorem witness_DecodeOfEncodeIsIdentity : (Instr.jpC 0xFFFF).wf = true ∧ (Instr.illegal 0xFD).wf = true ∧
    (Instr.unsupported 0xFF).wf = true := by decide
theorem witness_EncodeOfDecodeIsIdentity : decode [0xDA, 0x34, 0x12, 0x00] = .ok (.jpC 0x1234, [0x00]) := rfl
theorem witness_IllegalSetIsExact : decode [0xFD, 0x00] = .ok (.illegal 0xFD, [0x00]) ∧
    (0xD3 : Byte) ∈ ([0xD3, 0xDB, 0xDD, 0xE3, 0xE4, 0xEB, 0xEC, 0xED, 0xF4, 0xFC, 0xFD] : List Byte) := ⟨rfl, by decide⟩
theorem witness_UnsupportedSetAndLengths : decode [0xCB, 0x7C] = .ok (.unsupported 0xCB, [0x7C]) ∧
    (0x01 : Byte) ∈ unsupportedOpcodes ∧ (0xFF : Byte) ∈ unsupportedOpcodes ∧
    decode [0xC2, 0x00, 0x02] = .ok (.jpNZ 0x0200, []) ∧ decode [0x18, 0x05] = .ok (.jr 0x05, []) := ⟨rfl, by decide, by decide, rfl, rfl⟩

/-- The start state has its three bytes at PC, each readable. -/
theorem start_bytes (b0 b1 b2 : Byte) : BytesAt (start b0 b1 b2) 0x0100 [b0, b1, b2] := by
  have w0 : (Memory.set [] 0x100 b0).wf = true := Memory.set_wf (m := []) rfl _ _
  have w1 : ((Memory.set [] 0x100 b0).set 0x101 b1).wf = true := Memory.set_wf w0 _ _
  refine ⟨(congrArg Except.ok ?_ : Except.ok ((((Memory.set [] 0x100 b0).set 0x101 b1).set 0x102 b2).get 0x100) = _),
    (congrArg Except.ok ?_ : Except.ok ((((Memory.set [] 0x100 b0).set 0x101 b1).set 0x102 b2).get 0x101) = _),
    (congrArg Except.ok ?_ : Except.ok ((((Memory.set [] 0x100 b0).set 0x101 b1).set 0x102 b2).get 0x102) = _), trivial⟩
  · rw [Memory.get_set_other _ (by decide), Memory.get_set_other _ (by decide), Memory.get_set_same (m := []) rfl]
  · rw [Memory.get_set_other _ (by decide), Memory.get_set_same w0]
  · rw [Memory.get_set_same w1]

theorem ready1 (b0 b1 b2 : Byte) : Ready (start b0 b1 b2) [b0] := ⟨rfl, (start_bytes b0 b1 b2).1, trivial⟩
theorem ready2 (b0 b1 b2 : Byte) : Ready (start b0 b1 b2) [b0, b1] :=
  ⟨rfl, (start_bytes b0 b1 b2).1, (start_bytes b0 b1 b2).2.1, trivial⟩
theorem ready3 (b0 b1 b2 : Byte) : Ready (start b0 b1 b2) [b0, b1, b2] := ⟨rfl, start_bytes b0 b1 b2⟩

/-- One, two and three bytes. -/
theorem witness_StepRunsTheDecodedInstruction :
    (Ready (start 0x45 0 0) [0x45] ∧ Encodes [0x45] .ldBL) ∧
    (Ready (start 0x18 0xFE 0) [0x18, 0xFE] ∧ Encodes [0x18, 0xFE] (.jr 0xFE)) ∧
    (Ready (start 0xC3 0x34 0x12) [0xC3, 0x34, 0x12] ∧ Encodes [0xC3, 0x34, 0x12] (.jp 0x1234)) :=
  ⟨⟨ready1 _ _ _, rfl⟩, ⟨ready2 _ _ _, rfl⟩, ⟨ready3 _ _ _, rfl⟩⟩
theorem witness_NoStepFromATerminalStatus :
    ({ State.reset with status := .faulted (.outOfBounds 0) } : State).status = .faulted (.outOfBounds 0) ∧
    ({ State.reset with status := .refused 0 0x10 } : State).status = .refused 0 0x10 ∧ State.reset.status = .running := by decide

/-- The start state with an image of `n` bytes. -/
def cut (n : Nat) (s : State) : State := { s with mem := { s.mem with romLength := n } }

theorem witness_FetchFaultsKeepPcOnTheMissingByte :
    (State.reset.status = .running ∧ State.reset.mem.read State.reset.pc = .error (.outOfBounds 0x0100)) ∧
    (Ready (cut 0x0101 (start 0xC6 0 0)) [0xC6] ∧ (cut 0x0101 (start 0xC6 0 0)).mem.read 0x0101 = .error (.outOfBounds 0x0101)) ∧
    (Ready (cut 0x0101 (start 0x38 0 0)) [0x38] ∧ (cut 0x0101 (start 0x38 0 0)).mem.read 0x0101 = .error (.outOfBounds 0x0101)) ∧
    (Ready (cut 0x0102 (start 0xC3 0 0)) [0xC3, 0] ∧ (cut 0x0102 (start 0xC3 0 0)).mem.read 0x0102 = .error (.outOfBounds 0x0102)) :=
  ⟨⟨rfl, rfl⟩, ⟨⟨rfl, rfl, trivial⟩, rfl⟩, ⟨⟨rfl, rfl, trivial⟩, rfl⟩, ⟨⟨rfl, rfl, rfl, trivial⟩, rfl⟩⟩
theorem witness_StepAgreesWithTheFieldEngine : State.reset.status = .running := rfl
theorem witness_ConstructionMeetsTheInvariant : Preset.dmg.valid = true ∧ Preset.mgb.valid = true ∧ Preset.sgb.valid = true ∧
    Preset.cgb.valid = true := by decide
/-- Invariant and a step to a next state, from a state with a program in it. -/
theorem witness_StepKeepsTheInvariant : (start 0x77 0 0).Inv ∧ (∃ t, step { start 0x77 0 0 with h := 0xC0, a := 1 } = .next t) ∧
    ({ start 0x77 0 0 with h := 0xC0, a := 1 } : State).Inv :=
  ⟨⟨by decide, by decide, by decide⟩, ⟨_, rfl⟩, ⟨by decide, by decide, by decide⟩⟩
theorem witness_StepNeverChangesFixedState : (∃ t, step (start 0x45 0 0) = .next t) ∧ (0x7FFF : Word).toNat ≤ 0x7FFF :=
  ⟨⟨_, rfl⟩, by decide⟩
theorem witness_MarkerRecordsTheFirstUnsupportedOpcode : (∃ t, step (start 0xCB 0 0) = .next t) ∧
    ({ start 0xCB 0 0 with unsupportedSeen := some (0, 0x10) } : State).unsupportedSeen = some (0, 0x10) :=
  ⟨⟨_, rfl⟩, rfl⟩
theorem witness_ClockAdvancesByOneToFour : ∃ t, step (start 0xC3 0x00 0x02) = .next t ∧ t.mcycles = 4 := ⟨_, rfl, rfl⟩
/-- A completed instruction and a gap. -/
theorem witness_CycleTable :
    ((Instr.jp 0x1234).wf = true ∧ Ready (start 0xC3 0x34 0x12) (encode (.jp 0x1234)) ∧
      ∃ t, step (start 0xC3 0x34 0x12) = .next t ∧ t.status = .running) ∧
    ((Instr.illegal 0xD3).wf = true ∧ Ready (start 0xD3 0 0) (encode (.illegal 0xD3)) ∧
      isGap (Instr.illegal 0xD3).form = true ∧ ∃ t, step (start 0xD3 0 0) = .next t) :=
  ⟨⟨by decide, ready3 _ _ _, _, rfl, rfl⟩, ⟨by decide, ready1 _ _ _, rfl, _, rfl⟩⟩
/-- Each of the four errors is raised by some step. -/
theorem witness_StepRaisesOnlyTheFourReachableErrors :
    (∃ t, step State.reset = .next t ∧ t.status = .faulted (.outOfBounds 0x0100)) ∧
    (∃ t, step { start 0x77 0 0 with h := 0x7F, l := 0xFF } = .next t ∧ t.status = .faulted (.readOnlyWrite 0x7FFF)) ∧
    (∃ t, step { start 0x34 0 0 with h := 0xFE, l := 0xFF } = .next t ∧ t.status = .faulted (.prohibitedRegion 0xFEFF)) ∧
    (∃ t, step (start 0xFD 0 0) = .next t ∧ t.status = .faulted (.illegalOpcode 0x0100 0xFD)) :=
  ⟨⟨_, rfl, rfl⟩, ⟨_, rfl, rfl⟩, ⟨_, rfl, rfl⟩, ⟨_, rfl, rfl⟩⟩
/-- A register form, a storing form whose store is made, and each premise of the clauses. -/
theorem witness_FrameOfEveryInstruction :
    (∃ t, exec .ldBL (start 0x45 0 0) = .next t) ∧ destination Instr.ldBL.form ≠ some .c ∧ writesFlags Instr.ldBL.form = false ∧
    (∃ t, exec .incAtHL { start 0x34 0 0 with h := 0xC0 } = .next t) ∧ Instr.incAtHL.form = .inc .atHL ∧
    Instr.decB.form = .dec (.reg .b) ∧ jumps Instr.incAtHL.form = false ∧ mayMark Instr.incAtHL.form = false ∧
    storesAtHl Instr.cpAAtHL.form = false ∧ (start 0 0 0).mem.cellOf 0xC001 ≠ (start 0 0 0).mem.cellOf 0xC000 :=
  ⟨⟨_, rfl⟩, by decide, rfl, ⟨_, rfl⟩, rfl, rfl, rfl, rfl, rfl, by decide⟩
theorem witness_NopOnlyFetches : Ready (start 0x00 0 0) [0x00] ∧ State.reset.status = .running ∧
    State.reset.mem.read State.reset.pc = .error (.outOfBounds 0x0100) := ⟨ready1 _ _ _, rfl, rfl⟩
theorem witness_JumpAbsolute : Ready (start 0xC3 0x00 0x02) [0xC3, 0x00, 0x02] ∧
    (Ready (cut 0x0101 (start 0xC3 0 0)) [0xC3] ∧ (cut 0x0101 (start 0xC3 0 0)).mem.read 0x0101 = .error (.outOfBounds 0x0101)) ∧
    (Ready (cut 0x0102 (start 0xC3 0 0)) [0xC3, 0] ∧ (cut 0x0102 (start 0xC3 0 0)).mem.read 0x0102 = .error (.outOfBounds 0x0102)) :=
  ⟨ready3 _ _ _, ⟨⟨rfl, rfl, trivial⟩, rfl⟩, ⟨⟨rfl, rfl, rfl, trivial⟩, rfl⟩⟩
/-- Each condition true and false. -/
theorem witness_JumpAbsoluteConditional :
    ((0xC2, Instr.jpNZ, Cond.nz) ∈ jpCondRows ∧ Ready (start 0xC2 0x00 0x02) [0xC2, 0x00, 0x02] ∧ (start 0xC2 0x00 0x02).cond .nz = true ∧
      (start 0xC2 0x00 0x02).cond .z = false ∧ (start 0xC2 0x00 0x02).cond .nc = true ∧ (start 0xC2 0x00 0x02).cond .c = false) ∧
    ((0xDA, Instr.jpC, Cond.c) ∈ jpCondRows ∧ Ready { start 0xDA 0x00 0x02 with f := 0x90 } [0xDA, 0x00, 0x02] ∧
      ({ start 0xDA 0x00 0x02 with f := 0x90 } : State).cond .c = true ∧ ({ start 0xDA 0x00 0x02 with f := 0x90 } : State).cond .nc = false ∧
      ({ start 0xDA 0x00 0x02 with f := 0x90 } : State).cond .z = true ∧ ({ start 0xDA 0x00 0x02 with f := 0x90 } : State).cond .nz = false) ∧
    (Ready (cut 0x0102 (start 0xDA 0 0)) [0xDA, 0] ∧ (cut 0x0102 (start 0xDA 0 0)).mem.read 0x0102 = .error (.outOfBounds 0x0102)) :=
  ⟨⟨by simp [jpCondRows], ready3 _ _ _, rfl, rfl, rfl, rfl⟩, ⟨by simp [jpCondRows], ⟨rfl, rfl, rfl, rfl, trivial⟩, rfl, rfl, rfl, rfl⟩,
    ⟨⟨rfl, rfl, rfl, trivial⟩, rfl⟩⟩
theorem witness_JumpRelative : Ready (start 0x18 0x80 0) [0x18, 0x80] ∧ Ready (start 0x18 0x7F 0) [0x18, 0x7F] ∧
    (Ready (cut 0x0101 (start 0x18 0 0)) [0x18] ∧ (cut 0x0101 (start 0x18 0 0)).mem.read 0x0101 = .error (.outOfBounds 0x0101)) :=
  ⟨ready2 _ _ _, ready2 _ _ _, ⟨⟨rfl, rfl, trivial⟩, rfl⟩⟩
theorem witness_JumpRelativeConditional :
    ((0x20, Instr.jrNZ, Cond.nz) ∈ jrCondRows ∧ Ready (start 0x20 0xFC 0) [0x20, 0xFC] ∧ (start 0x20 0xFC 0).cond .nz = true) ∧
    ((0x38, Instr.jrC, Cond.c) ∈ jrCondRows ∧ Ready (start 0x38 0xFC 0) [0x38, 0xFC] ∧ (start 0x38 0xFC 0).cond .c = false) ∧
    (Ready (cut 0x0101 (start 0x28 0 0)) [0x28] ∧ (cut 0x0101 (start 0x28 0 0)).mem.read 0x0101 = .error (.outOfBounds 0x0101)) :=
  ⟨⟨by simp [jrCondRows], ready2 _ _ _, rfl⟩, ⟨by simp [jrCondRows], ready2 _ _ _, rfl⟩, ⟨⟨rfl, rfl, trivial⟩, rfl⟩⟩
theorem witness_JumpToHl : Ready (start 0xE9 0 0) [0xE9] := ready1 _ _ _
theorem witness_LoadRegisterFromRegister : (0x40, Instr.ldBB, Reg8.b, Reg8.b) ∈ ldRegRegRows ∧
    (0x7F, Instr.ldAA, Reg8.a, Reg8.a) ∈ ldRegRegRows ∧ (0x63, Instr.ldHE, Reg8.h, Reg8.e) ∈ ldRegRegRows ∧
    Ready (start 0x63 0 0) [0x63] := ⟨by decide, by decide, by decide, ready1 _ _ _⟩
/-- The start state with opcode `op` and HL = `a`, without external RAM. -/
def atHl (op : Byte) (a : Word) : State :=
  { start op 0 0 with
    h := a.extractLsb' 8 8
    l := a.extractLsb' 0 8
    mem := { (start op 0 0).mem with mEram := 0 } }

/-- A readable HL and an unreadable one. -/
theorem witness_LoadRegisterFromMemory : (start 0x66 0 0).Inv ∧ 0xFEA0 ≤ (atHl 0x66 0xFEFF).hl.toNat ∧ (atHl 0x66 0xFEFF).hl.toNat ≤ 0xFEFF ∧
    ((0x66, Instr.ldHAtHL, Reg8.h) ∈ ldRegHlRows ∧ Ready { start 0x66 0 0 with h := 0xC0 } [0x66] ∧
      ({ start 0x66 0 0 with h := 0xC0 } : State).mem.read 0xC000 = .ok 0x00) ∧
    ((0x7E, Instr.ldAAtHL, Reg8.a) ∈ ldRegHlRows ∧ Ready { start 0x7E 0 0 with h := 0x40 } [0x7E] ∧
      ({ start 0x7E 0 0 with h := 0x40 } : State).mem.read 0x4000 = .error (.outOfBounds 0x4000)) :=
  ⟨⟨by decide, by decide, by decide⟩, by decide, by decide, ⟨by decide, ⟨rfl, by decide, trivial⟩, by decide⟩, ⟨by decide, ⟨rfl, by decide, trivial⟩, by decide⟩⟩

/-- Writable windows at their ends, and the three kinds of address a store fails at, at theirs. -/
theorem witness_StoreRegisterToMemory : (0x77, Instr.ldAtHLA, Reg8.a) ∈ ldHlRegRows ∧
    ((atHl 0x77 0x8000).Inv ∧ Writable (atHl 0x77 0x8000) (atHl 0x77 0x8000).hl ∧ Ready (atHl 0x77 0x8000) [0x77]) ∧
    ((atHl 0x77 0xFFFF).Inv ∧ Writable (atHl 0x77 0xFFFF) (atHl 0x77 0xFFFF).hl ∧ Ready (atHl 0x77 0xFFFF) [0x77]) ∧
    ((atHl 0x77 0x7FFF).hl.toNat ≤ 0x7FFF ∧ 0xFEA0 ≤ (atHl 0x77 0xFEA0).hl.toNat ∧ (atHl 0x77 0xFEFF).hl.toNat ≤ 0xFEFF ∧
      0xA000 ≤ (atHl 0x77 0xA000).hl.toNat ∧ (atHl 0x77 0xBFFF).hl.toNat ≤ 0xBFFF ∧
      (atHl 0x77 0xA000).mem.mEram ≤ (atHl 0x77 0xA000).mem.eramBank) :=
  ⟨by decide, ⟨⟨by decide, by decide, by decide⟩, ⟨by decide, by decide, by decide⟩, rfl, by decide, trivial⟩,
    ⟨⟨by decide, by decide, by decide⟩, ⟨by decide, by decide, by decide⟩, rfl, by decide, trivial⟩, by decide⟩
/-- External RAM with two banks is writable. -/
theorem witness_Writable_externalRam : Writable { start 0x77 0 0 with h := 0xA0 } 0xA000 ∧ ({ start 0x77 0 0 with h := 0xA0 } : State).Inv :=
  ⟨⟨by decide, by decide, fun _ => by decide⟩, by decide, by decide, by decide⟩
theorem witness_Opcode76FollowsItsPolicy_loads :
    (atHl 0x76 0xC000).config.opc76Policy = .documentLoad ∧ (atHl 0x76 0xC000).Inv ∧ Writable (atHl 0x76 0xC000) (atHl 0x76 0xC000).hl ∧
      Ready (atHl 0x76 0xC000) [0x76] :=
  ⟨by decide, ⟨by decide, by decide, by decide⟩, ⟨by decide, by decide, by decide⟩, rfl, by decide, trivial⟩
/-- HL without a cell, in ROM, and in the prohibited window. -/
theorem witness_Opcode76FollowsItsPolicy_faults :
    (atHl 0x76 0xA000).config.opc76Policy = .documentLoad ∧
    (atHl 0x76 0xA000).mem.read (atHl 0x76 0xA000).hl = .error (.outOfBounds 0xA000) ∧
    (atHl 0x76 0x0100).mem.read (atHl 0x76 0x0100).hl = .ok 0x76 ∧ (atHl 0x76 0x0100).hl.toNat ≤ 0x7FFF ∧
    (atHl 0x76 0xFEFF).mem.read (atHl 0x76 0xFEFF).hl = .ok 0x00 ∧ 0xFEA0 ≤ (atHl 0x76 0xFEFF).hl.toNat ∧
    (atHl 0x76 0xFEFF).hl.toNat ≤ 0xFEFF := by decide
theorem witness_Opcode76FollowsItsPolicy_faults_ready :
    Ready (atHl 0x76 0xA000) [0x76] ∧ Ready (atHl 0x76 0x0100) [0x76] ∧ Ready (atHl 0x76 0xFEFF) [0x76] :=
  ⟨⟨rfl, by decide, trivial⟩, ⟨rfl, by decide, trivial⟩, ⟨rfl, by decide, trivial⟩⟩
/-- 0x76 at PC, read as an unsupported opcode under policy `p`. -/
def unsupported76 (p : UnsupportedPolicy) : State :=
  { start 0x76 0 0 with config := { Config.defaults with opc76Policy := .unsupported, unsupportedPolicy := p } }
theorem witness_Opcode76FollowsItsPolicy_marker : (unsupported76 .marker).config.opc76Policy = .unsupported ∧
    (unsupported76 .marker).config.unsupportedPolicy = .marker ∧ Ready (unsupported76 .marker) [0x76] :=
  ⟨rfl, rfl, rfl, by decide, trivial⟩
theorem witness_Opcode76FollowsItsPolicy_refuse : (unsupported76 .refuse).config.opc76Policy = .unsupported ∧
    (unsupported76 .refuse).config.unsupportedPolicy = .refuse ∧ Ready (unsupported76 .refuse) [0x76] :=
  ⟨rfl, rfl, rfl, by decide, trivial⟩

/-- Opcode `op` on a register, opcode `op + 6` on a readable HL and `imm` with n8, each at PC. -/
def AluWitness (rows : List (Byte × Instr × Reg8)) (op : Byte) (i : Instr) (imm : Byte) : Prop :=
  (op, i, Reg8.b) ∈ rows ∧ Ready (start op 0 0) [op] ∧
  (Ready (atHl (op + 6) 0xC000) [op + 6] ∧ (atHl (op + 6) 0xC000).mem.read (atHl (op + 6) 0xC000).hl = .ok 0x00) ∧
  Ready (start imm 0x0F 0) [imm, 0x0F]

theorem witness_AddWritesSumAndFlags : AluWitness addRows 0x80 .addAB 0xC6 :=
  ⟨by decide, ready1 _ _ _, ⟨⟨rfl, by decide, trivial⟩, by decide⟩, ready2 _ _ _⟩
theorem witness_AdcAddsTheCarryUnderTheMode : AluWitness adcRows 0x88 .adcAB 0xCE :=
  ⟨by decide, ready1 _ _ _, ⟨⟨rfl, by decide, trivial⟩, by decide⟩, ready2 _ _ _⟩
theorem witness_SubWritesDifferenceAndFlags : AluWitness subRows 0x90 .subAB 0xD6 :=
  ⟨by decide, ready1 _ _ _, ⟨⟨rfl, by decide, trivial⟩, by decide⟩, ready2 _ _ _⟩
theorem witness_SbcSubtractsTheBorrowUnderTheMode : AluWitness sbcRows 0x98 .sbcAB 0xDE :=
  ⟨by decide, ready1 _ _ _, ⟨⟨rfl, by decide, trivial⟩, by decide⟩, ready2 _ _ _⟩
theorem witness_AndSetsHalfCarry : AluWitness andRows 0xA0 .andAB 0xE6 :=
  ⟨by decide, ready1 _ _ _, ⟨⟨rfl, by decide, trivial⟩, by decide⟩, ready2 _ _ _⟩
theorem witness_XorClearsOtherFlags : AluWitness xorRows 0xA8 .xorAB 0xEE :=
  ⟨by decide, ready1 _ _ _, ⟨⟨rfl, by decide, trivial⟩, by decide⟩, ready2 _ _ _⟩
theorem witness_OrClearsOtherFlags : AluWitness orRows 0xB0 .orAB 0xF6 :=
  ⟨by decide, ready1 _ _ _, ⟨⟨rfl, by decide, trivial⟩, by decide⟩, ready2 _ _ _⟩
theorem witness_CompareKeepsA : AluWitness cpRows 0xB8 .cpAB 0xFE :=
  ⟨by decide, ready1 _ _ _, ⟨⟨rfl, by decide, trivial⟩, by decide⟩, ready2 _ _ _⟩
theorem witness_AluOperandFaultWritesNothing : (0x86, Instr.addAAtHL) ∈ aluHlRows ∧ (0xBE, Instr.cpAAtHL) ∈ aluHlRows ∧
    Ready (atHl 0xBE 0xBFFF) [0xBE] ∧ (atHl 0xBE 0xBFFF).mem.read (atHl 0xBE 0xBFFF).hl = .error (.outOfBounds 0xBFFF) :=
  ⟨by decide, by decide, ⟨rfl, by decide, trivial⟩, by decide⟩
theorem witness_IncDecRegister : (0x3C, Instr.incA, Reg8.a) ∈ incRows ∧ Ready (start 0x3C 0 0) [0x3C] ∧
    (0x05, Instr.decB, Reg8.b) ∈ decRows ∧ Ready (start 0x05 0 0) [0x05] := ⟨by decide, ready1 _ _ _, by decide, ready1 _ _ _⟩
theorem witness_IncDecMemory :
    ((atHl 0x34 0xC000).Inv ∧ Writable (atHl 0x34 0xC000) (atHl 0x34 0xC000).hl ∧ Ready (atHl 0x34 0xC000) [0x34]) ∧
    ((atHl 0x35 0xFFFF).Inv ∧ Writable (atHl 0x35 0xFFFF) (atHl 0x35 0xFFFF).hl ∧ Ready (atHl 0x35 0xFFFF) [0x35]) ∧
    (atHl 0x34 0xA000).mem.read (atHl 0x34 0xA000).hl = .error (.outOfBounds 0xA000) ∧
    ((atHl 0x34 0x0100).mem.read (atHl 0x34 0x0100).hl = .ok 0x34 ∧ (atHl 0x34 0x0100).hl.toNat ≤ 0x7FFF) ∧
    ((atHl 0x35 0xFEA0).mem.read (atHl 0x35 0xFEA0).hl = .ok 0x00 ∧ 0xFEA0 ≤ (atHl 0x35 0xFEA0).hl.toNat ∧
      (atHl 0x35 0xFEA0).hl.toNat ≤ 0xFEFF) :=
  ⟨⟨⟨by decide, by decide, by decide⟩, ⟨by decide, by decide, by decide⟩, rfl, by decide, trivial⟩,
    ⟨⟨by decide, by decide, by decide⟩, ⟨by decide, by decide, by decide⟩, rfl, by decide, trivial⟩, by decide, ⟨by decide, by decide⟩,
    ⟨by decide, by decide, by decide⟩⟩
theorem witness_IllegalOpcodeEndsTheRun : (0xFD : Byte) ∈ ([0xD3, 0xDB, 0xDD, 0xE3, 0xE4, 0xEB, 0xEC, 0xED, 0xF4, 0xFC, 0xFD] : List Byte) ∧
    Ready (start 0xFD 0 0) [0xFD] := ⟨by decide, ready1 _ _ _⟩
theorem witness_UnsupportedOpcodeUnderBothPolicies : (0xCB : Byte) ∈ unsupportedOpcodes ∧ Ready (start 0xCB 0 0) [0xCB] ∧
    (start 0xCB 0 0).config.unsupportedPolicy = .marker ∧
    ({ start 0xCB 0 0 with config := { Config.defaults with unsupportedPolicy := .refuse } } : State).config.unsupportedPolicy = .refuse ∧
    Ready { start 0xCB 0 0 with config := { Config.defaults with unsupportedPolicy := .refuse } } [0xCB] :=
  ⟨by decide, ready1 _ _ _, rfl, rfl, ⟨rfl, by decide, trivial⟩⟩

end Sys2Proof.Tests
end

section
/-! PROOFS. The bit primitives of 00_scope.md R9 to R12: what each gives bit by bit, and that a field read can be put back. -/

namespace Sys2Proof.Proofs
open Sys2Proof Sys2Proof.Machine

/-! ### Composition of a word -/

theorem compose16_toNat (lo hi : Byte) : (compose16 lo hi).toNat = hi.toNat * 256 + lo.toNat := by
  have hlo := lo.isLt
  have hhi := hi.isLt
  exact Nat.mod_eq_of_lt (by omega)

theorem decompose16_compose16 (lo hi : Byte) : decompose16 (compose16 lo hi) = (lo, hi) := by
  have hlo := lo.isLt
  have hhi := hi.isLt
  refine Prod.ext (BitVec.eq_of_toNat_eq ?_) (BitVec.eq_of_toNat_eq ?_)
  · simp only [decompose16, BitVec.extractLsb'_toNat, compose16_toNat, Nat.shiftRight_zero]
    omega
  · simp only [decompose16, BitVec.extractLsb'_toNat, compose16_toNat, Nat.shiftRight_eq_div_pow]
    omega

/-! ### Fields of a byte -/

/-- The sum in the body of `insertBits` stacks three pieces of bits, the top ones of `b`, the field from `v` and the low ones
of `b`, and no piece carries into the next. -/
theorem testBit_replaceField (b v index length j : Nat) :
    (b / 2 ^ (index + length) * 2 ^ (index + length) + v % 2 ^ length * 2 ^ index + b % 2 ^ index).testBit j =
      if index ≤ j ∧ j < index + length then v.testBit (j - index) else b.testBit j := by
  have stacked : b / 2 ^ (index + length) * 2 ^ (index + length) + v % 2 ^ length * 2 ^ index + b % 2 ^ index =
      2 ^ index * (2 ^ length * (b / 2 ^ (index + length)) + v % 2 ^ length) + b % 2 ^ index := by ring
  rw [stacked, Nat.testBit_two_pow_mul_add _ (Nat.mod_lt _ (Nat.two_pow_pos _)),
    Nat.testBit_two_pow_mul_add _ (Nat.mod_lt _ (Nat.two_pow_pos _))]
  by_cases low : j < index
  · simp [low, show ¬ index ≤ j by omega]
  by_cases field : j < index + length
  · simp [low, field, show index ≤ j by omega, show j - index < length by omega]
  · have top : index + length + (j - index - length) = j := by omega
    simp [low, field, show ¬ j - index < length by omega, Nat.testBit_div_two_pow, top, Nat.add_comm _ (index + length)]

theorem exists_insertBits_eq_ok (b v : Byte) {index length : Nat} (fits : index + length ≤ 8) :
    ∃ r, insertBits b index length v = .ok r :=
  ⟨_, if_pos fits⟩

theorem insertBits_eq_overflowBitWrite (b v : Byte) {index length : Nat} (past : 8 < index + length) :
    insertBits b index length v = .error .overflowBitWrite :=
  if_neg (by omega)

theorem exists_extractBits_eq_ok (b : Byte) {index length : Nat} (fits : index + length ≤ 8) :
    ∃ x, extractBits b index length = .ok x :=
  ⟨_, if_pos fits⟩

theorem getLsbD_of_insertBits {b v r : Byte} {index length : Nat} (h : insertBits b index length v = .ok r) {j : Nat}
    (hj : j < 8) :
    r.getLsbD j = if index ≤ j ∧ j < index + length then v.getLsbD (j - index) else b.getLsbD j := by
  unfold insertBits at h
  split at h
  · cases h
    simp only [BitVec.getLsbD_ofNat, testBit_replaceField, hj, decide_true, Bool.true_and, BitVec.testBit_toNat]
  · cases h

theorem getLsbD_of_extractBits {b x : Byte} {index length : Nat} (h : extractBits b index length = .ok x) {j : Nat}
    (hj : j < length) : x.getLsbD j = b.getLsbD (index + j) := by
  unfold extractBits at h
  split at h
  · cases h
    have inByte : j < 8 := by omega
    simp only [BitVec.getLsbD_ofNat, Nat.testBit_mod_two_pow, Nat.testBit_div_two_pow, hj, inByte, decide_true,
      Bool.true_and, BitVec.testBit_toNat, Nat.add_comm]
  · cases h

/-- What `extractBits` read, put back where it was, changes no bit. -/
theorem insertBits_extractBits {b x : Byte} {index length : Nat} (h : extractBits b index length = .ok x)
    (fits : index + length ≤ 8) : insertBits b index length x = .ok b := by
  obtain ⟨r, hr⟩ := exists_insertBits_eq_ok b x fits
  have same : r = b := BitVec.eq_of_getLsbD_eq fun j hj => by
    rw [getLsbD_of_insertBits hr hj]
    split
    case isTrue inField =>
      rw [getLsbD_of_extractBits h (by omega), Nat.add_sub_cancel' inField.1]
    case isFalse => rfl
  rw [hr, same]

/-- Settles O1: the words by arithmetic, the fields bit by bit. -/
theorem bitPrimitivesComposeAndInsert : Obligations.BitPrimitivesComposeAndInsert := by
  refine ⟨fun lo hi => ⟨compose16_toNat lo hi, decompose16_compose16 lo hi⟩, fun _ => rfl,
    fun b v index length fits => ⟨?_, ?_⟩, fun b v _ _ => insertBits_eq_overflowBitWrite b v⟩
  · obtain ⟨r, hr⟩ := exists_insertBits_eq_ok b v fits
    exact ⟨r, hr, fun _ => getLsbD_of_insertBits hr⟩
  · obtain ⟨x, hx⟩ := exists_extractBits_eq_ok b fits
    exact ⟨x, hx, insertBits_extractBits hx fits⟩

end Sys2Proof.Proofs
end

section
/-! PROOFS. The flags and the codes of 10_state.md R21 to R26: what a write of F does to each bit of it and leaves unchanged, and
which register or condition a code names. -/

namespace Sys2Proof.Proofs
open Sys2Proof Sys2Proof.Machine

/-! ### Writes of one flag (R24) -/

theorem flagBit_lt (fl : Flag) : fl.bit < 8 := by
  cases fl <;> decide

/-- The mask of a flag holds that flag's bit and no other. -/
theorem getLsbD_flagMask (fl : Flag) (j : Nat) : (BitVec.twoPow 8 fl.bit).getLsbD j = decide (j = fl.bit) := by
  simp only [BitVec.getLsbD_twoPow, flagBit_lt, decide_true, Bool.true_and, eq_comm]

theorem getLsbD_writeFlag_value (s : State) (fl : Flag) (v : Bool) {j : Nat} (hj : j < 8) :
    (s.writeFlag fl (.value v)).f.getLsbD j = if j = fl.bit then v else s.f.getLsbD j := by
  cases v with
  | true =>
    have masked : (s.writeFlag fl (.value true)).f = s.f ||| BitVec.twoPow 8 fl.bit := rfl
    rw [masked, BitVec.getLsbD_or, getLsbD_flagMask]
    split <;> simp [*]
  | false =>
    have masked : (s.writeFlag fl (.value false)).f = s.f &&& ~~~(BitVec.twoPow 8 fl.bit) := rfl
    rw [masked, BitVec.getLsbD_and, BitVec.getLsbD_not, getLsbD_flagMask]
    split <;> simp [*]

theorem getLsbD_writeFlag_toggle (s : State) (fl : Flag) (j : Nat) :
    (s.writeFlag fl .toggle).f.getLsbD j = if j = fl.bit then !s.f.getLsbD j else s.f.getLsbD j := by
  have masked : (s.writeFlag fl .toggle).f = s.f ^^^ BitVec.twoPow 8 fl.bit := rfl
  rw [masked, BitVec.getLsbD_xor, getLsbD_flagMask]
  split <;> simp [*]

/-- `write_flag` changes F only: with F put back, the state is the old one. -/
theorem writeFlag_frame (s : State) (fl : Flag) (w : FlagWrite) : { s.writeFlag fl w with f := s.f } = s := by
  cases w with
  | value v => cases v <;> rfl
  | toggle => rfl

/-! ### Writes of all four flags (R25) -/

/-- The four flags stand at their places in F, with zeros below them. -/
theorem packFlags_eq_ofNat (z n h c : Bool) :
    packFlags z n h c = BitVec.ofNat 8 (z.toNat * 128 + n.toNat * 64 + h.toNat * 32 + c.toNat * 16) := by
  revert z n h c
  decide

/-- Settles O4: each write of F is a mask, read bit by bit; the rest of the state is the old one. -/
theorem flagWritesTouchOnlyTheirBits : Obligations.FlagWritesTouchOnlyTheirBits := by
  refine ⟨fun _ => ⟨rfl, rfl, rfl, rfl⟩, fun s fl v j hj => ⟨?_, ?_⟩, writeFlag_frame, fun s z n h c => ?_⟩
  · exact getLsbD_writeFlag_value s fl v hj
  · exact getLsbD_writeFlag_toggle s fl j
  · rw [← packFlags_eq_ofNat]
    rfl

/-! ### Codes of registers and conditions (R21, R26) -/

theorem resolveRegister_invalid {code : Nat} (outside : code = 6 ∨ 7 < code) :
    resolveRegister code = .error .invalidRegisterIndex := by
  obtain rfl | past := outside
  case inl => rfl
  case inr =>
    obtain ⟨k, rfl⟩ := Nat.exists_eq_add_of_le' past
    rfl

theorem evaluateCondition_invalid (s : State) {code : Nat} (past : 3 < code) :
    evaluateCondition code s = .error .invalidConditionCode := by
  obtain ⟨k, rfl⟩ := Nat.exists_eq_add_of_le' past
  rfl

/-- Settles O2: the rows of the two tables and of the register file by their definitions, the codes outside by their size. -/
theorem registerAndConditionCodes : Obligations.RegisterAndConditionCodes := by
  refine ⟨?codes, fun _ => resolveRegister_invalid, ?reads, ?writes, ?conditions, fun s _ => evaluateCondition_invalid s⟩
  case codes => exact ⟨rfl, rfl, rfl, rfl, rfl, rfl, rfl⟩
  case reads => exact fun _ => ⟨rfl, rfl, rfl, rfl, rfl, rfl, rfl⟩
  case writes => exact fun _ _ => ⟨rfl, rfl, rfl, rfl, rfl, rfl, rfl⟩
  case conditions => exact fun _ => ⟨rfl, rfl, rfl, rfl⟩

end Sys2Proof.Proofs
end

section
/-! PROOFS. The memory map of 20_memory.md R52 to R55: the cell each row of the decode table reaches, and what one access to
the map, and one `MemRead` or `MemWrite`, gives for a cell that exists, for one that does not, and in the prohibited window. -/

namespace Sys2Proof.Proofs
open Sys2Proof Sys2Proof.Machine

/-! ### Which cell an address reaches (R52) -/

theorem regionOf_eq_prohibited {a : Nat} (window : 0xFEA0 ≤ a ∧ a ≤ 0xFEFF) : regionOf a = .prohibited :=
  regionOf_eq window.1 window.2

theorem regionOf_ne_prohibited_of_cellOf {m : MemoryMap} {a : Nat} {c : Store × Nat} (cell : m.cellOf a = some c) :
    regionOf a ≠ .prohibited := by
  intro prohibited
  rw [m.cellOf_prohibited prohibited] at cell
  cases cell

/-- Both ROM windows reach ROM, at whatever bank index. -/
theorem exists_cellOf_eq_rom (m : MemoryMap) {a : Nat} (inRom : a ≤ 0x7FFF) : ∃ i, m.cellOf a = some (.rom, i) := by
  obtain bank0 | switchable := Nat.lt_or_ge a 0x4000
  · exact ⟨a, by rw [MemoryMap.cellOf, regionOf_eq (r := .romBank0) (Nat.zero_le a) (Nat.le_of_lt_succ bank0)]⟩
  · exact ⟨_, by rw [MemoryMap.cellOf, regionOf_eq (r := .romSwitchable) switchable inRom]⟩

theorem above_rom_of_cellOf {m : MemoryMap} {a : Nat} {st : Store} {i : Nat} (cell : m.cellOf a = some (st, i))
    (notRom : st ≠ .rom) : ¬ a ≤ 0x7FFF := by
  intro inRom
  obtain ⟨j, romCell⟩ := exists_cellOf_eq_rom m inRom
  rw [romCell] at cell
  cases cell
  exact notRom rfl

/-! ### One access to the map (R54, R55) -/

theorem read_prohibited (m : MemoryMap) {a : Word} (prohibited : regionOf a.toNat = .prohibited) : m.read a = .ok 0x00 :=
  if_pos prohibited

theorem write_readOnly (m : MemoryMap) {a : Word} (v : Byte) (inRom : a.toNat ≤ 0x7FFF) :
    m.write a v = .error (.readOnlyWrite a) :=
  if_pos inRom

theorem write_prohibited (m : MemoryMap) {a : Word} (v : Byte) (window : 0xFEA0 ≤ a.toNat ∧ a.toNat ≤ 0xFEFF) :
    m.write a v = .error (.prohibitedRegion a) := by
  have aboveRom : ¬ a.toNat ≤ 0x7FFF := by omega
  simp only [MemoryMap.write, aboveRom, regionOf_eq_prohibited window, if_true, if_false]

section Cell
variable {m : MemoryMap} {a : Word} {st : Store} {i : Nat}

theorem read_cell (cell : m.cellOf a.toNat = some (st, i)) (present : i < m.size st) :
    m.read a = .ok ((m.store st).get i) := by
  simp only [MemoryMap.read, regionOf_ne_prohibited_of_cellOf cell, cell, present, if_true, if_false]

theorem read_absent_cell (cell : m.cellOf a.toNat = some (st, i)) (absent : ¬ i < m.size st) :
    m.read a = .error (.outOfBounds a) := by
  simp only [MemoryMap.read, regionOf_ne_prohibited_of_cellOf cell, cell, absent, if_false]

theorem write_cell (cell : m.cellOf a.toNat = some (st, i)) (aboveRom : ¬ a.toNat ≤ 0x7FFF) (present : i < m.size st)
    (v : Byte) : m.write a v = .ok (m.setStore st ((m.store st).set i v)) := by
  simp only [MemoryMap.write, aboveRom, regionOf_ne_prohibited_of_cellOf cell, cell, present, if_true, if_false]

theorem write_absent_cell (cell : m.cellOf a.toNat = some (st, i)) (aboveRom : ¬ a.toNat ≤ 0x7FFF)
    (absent : ¬ i < m.size st) (v : Byte) : m.write a v = .error (.outOfBounds a) := by
  simp only [MemoryMap.write, aboveRom, regionOf_ne_prohibited_of_cellOf cell, cell, absent, if_false]

end Cell

/-! ### The statements -/

/-- Settles O8: in each row the bounds fix the region, and the region the cell; what an access does then follows from the
cell. -/
theorem addressDecodeTable : Obligations.AddressDecodeTable := by
  intro m w
  refine ⟨w.toNat, rfl, regionOf_word w, ?romBank0, ?romSwitchable, ?vram, ?eram, ?wramBank0, ?wramSwitchable, ?mirrorBank0,
    ?mirrorSwitchable, ?oam, ?prohibited, ?io, ?highRam, ?interruptEnable, fun v => write_readOnly m v, ?prohibitedAccess,
    ?cellAccess⟩
  case romBank0 => exact fun hi => by rw [MemoryMap.cellOf, regionOf_eq (r := .romBank0) (Nat.zero_le _) hi]
  case romSwitchable => exact fun row => by rw [MemoryMap.cellOf, regionOf_eq (r := .romSwitchable) row.1 row.2]
  case vram => exact fun row => by rw [MemoryMap.cellOf, regionOf_eq (r := .vram) row.1 row.2]
  case eram => exact fun row => by rw [MemoryMap.cellOf, regionOf_eq (r := .eram) row.1 row.2]
  case wramBank0 => exact fun row => by rw [MemoryMap.cellOf, regionOf_eq (r := .wramBank0) row.1 row.2]
  case wramSwitchable => exact fun row => by rw [MemoryMap.cellOf, regionOf_eq (r := .wramSwitchable) row.1 row.2]
  case mirrorBank0 => exact fun row => by rw [MemoryMap.cellOf, regionOf_eq (r := .mirrorBank0) row.1 row.2]
  case mirrorSwitchable => exact fun row => by rw [MemoryMap.cellOf, regionOf_eq (r := .mirrorSwitchable) row.1 row.2]
  case oam => exact fun row => by rw [MemoryMap.cellOf, regionOf_eq (r := .oam) row.1 row.2]
  case prohibited => exact fun row => m.cellOf_prohibited (regionOf_eq_prohibited row)
  case io => exact fun row => by rw [MemoryMap.cellOf, regionOf_eq (r := .io) row.1 row.2]
  case highRam => exact fun row => by rw [MemoryMap.cellOf, regionOf_eq (r := .highRam) row.1 row.2]
  case interruptEnable => exact fun last => by rw [MemoryMap.cellOf, regionOf_eq (r := .interruptEnable) last.ge last.le]
  case prohibitedAccess =>
    exact fun row => ⟨read_prohibited m (regionOf_eq_prohibited row), fun v => write_prohibited m v row⟩
  case cellAccess =>
    exact fun st i cell present => ⟨read_cell cell present, fun aboveRom => write_cell cell (Nat.not_le_of_lt aboveRom) present⟩

/-- Settles O9: `MemRead` is the map's read with one tick, and the map's read goes by the cell. -/
theorem memReadRule : Obligations.MemReadRule := by
  intro s w
  refine ⟨fun window => ?prohibited, fun st i cell present => ?cell, fun st i _ cell absent => ?absent⟩
  case prohibited => exact memRead_ok (read_prohibited s.mem (regionOf_eq_prohibited window))
  case cell => exact memRead_ok (read_cell cell present)
  case absent => exact memRead_error (read_absent_cell cell absent)

/-- Settles O10: `MemWrite` is the map's write with one tick; an external-RAM cell is reached from above ROM only, so its
absence is the error raised. -/
theorem memWriteRule : Obligations.MemWriteRule := by
  intro s w v
  refine ⟨fun inRom => ?readOnly, fun window => ?prohibited, fun st i cell aboveRom present => ?cell,
    fun i cell absent => ?absent⟩
  case readOnly => exact memWrite_error (write_readOnly s.mem v inRom)
  case prohibited => exact memWrite_error (write_prohibited s.mem v window)
  case cell => exact memWrite_ok (write_cell cell (Nat.not_le_of_lt aboveRom) present v)
  case absent =>
    have aboveRom : ¬ w.toNat ≤ 0x7FFF := above_rom_of_cellOf cell (by decide)
    exact memWrite_error (write_absent_cell cell aboveRom absent v)

end Sys2Proof.Proofs
end

section
/-! PROOFS. The decode table and the operand resolver of 30_encoding.md section 4 and R98 to R103: what a row of the table
yields encodes back to the row's own opcode byte, which bytes are illegal, and what the three operations on an operand give. -/

namespace Sys2Proof.Proofs
open Sys2Proof Sys2Proof.Machine Sys2Proof.Laws

/-! ### What the rows of the decode table encode to (R101) -/

/-- What the row yields from its immediates, here `n` or the two bytes of `w`, is well-formed and is encoded by `op` and those
immediates. -/
def RowEncodesTo (op : Byte) (row : Row) : Prop :=
  ∀ (n : Byte) (w : Word),
    match row with
    | .plain i => encode i = [op] ∧ i.wf = true
    | .imm8 f => encode (f n) = [op, n] ∧ (f n).wf = true
    | .imm16 f => encode (f w) = [op, (decompose16 w).1, (decompose16 w).2] ∧ (f w).wf = true

/-- Each of the 256 rows, by evaluation of both tables. -/
theorem rowOf_encodesTo (op : Byte) : RowEncodesTo op (rowOf op) := by
  obtain ⟨k, below⟩ := op
  interval_cases k <;> exact fun _ _ => ⟨rfl, rfl⟩

/-- What the decoder took from a list of bytes is the encoding of the instruction it answers. -/
theorem encode_append_of_decode {bytes rest : List Byte} {i : Instr} (h : decode bytes = .ok (i, rest)) :
    encode i ++ rest = bytes ∧ i.wf = true := by
  obtain ⟨op, row, rfl⟩ | ⟨op, n, f, row, rfl, rfl⟩ | ⟨op, lo, hi, f, row, rfl, rfl⟩ := decode_cases h
  case inl =>
    obtain ⟨encoded, wf⟩ : encode i = [op] ∧ i.wf = true := by simpa only [row] using rowOf_encodesTo op 0 0
    exact ⟨congrArg (· ++ rest) encoded, wf⟩
  case inr.inl =>
    obtain ⟨encoded, wf⟩ : encode (f n) = [op, n] ∧ (f n).wf = true := by simpa only [row] using rowOf_encodesTo op n 0
    exact ⟨congrArg (· ++ rest) encoded, wf⟩
  case inr.inr =>
    obtain ⟨encoded, wf⟩ : encode (f (compose16 lo hi)) = [op, lo, hi] ∧ (f (compose16 lo hi)).wf = true := by
      simpa only [row, decompose16_compose16] using rowOf_encodesTo op 0 (compose16 lo hi)
    exact ⟨congrArg (· ++ rest) encoded, wf⟩

/-! ### The illegal opcodes (R103, R220) -/

theorem wf_illegal_iff (op : Byte) : (Instr.illegal op).wf = true ↔ op ∈ illegalOpcodes := List.contains_iff_mem

theorem decode_illegal {op : Byte} (illegal : op ∈ illegalOpcodes) (rest : List Byte) :
    decode (op :: rest) = .ok (.illegal op, rest) := by
  have yields := OpcodeRow.illegal_rows op illegal
  cases row : rowOf op with rw [row] at yields
  | plain i =>
    cases yields
    exact decode_plain row rest
  | imm8 | imm16 => cases yields

theorem exec_illegal (op : Byte) (s : State) :
    exec (.illegal op) s = .next (s.raise (.illegalOpcode (s.pc - 1) op)) := rfl

/-- Settles O21: an illegal instruction that was decoded is well-formed and its encoding is the byte it carries, so that byte
is in the set and is the opcode; conversely each byte of the set has its own row. -/
theorem illegalSetIsExact : Obligations.IllegalSetIsExact := by
  refine ⟨fun op o rest rest' => ⟨fun decoded => ?_, ?_⟩, fun op s => ⟨_, _, exec_illegal op s, rfl⟩⟩
  · obtain ⟨bytes, wf⟩ := encode_append_of_decode decoded
    obtain ⟨rfl, rfl⟩ : o = op ∧ rest' = rest := List.cons.inj bytes
    exact ⟨(wf_illegal_iff _).mp wf, rfl, rfl⟩
  · rintro ⟨illegal, rfl, rfl⟩
    exact decode_illegal illegal _

/-! ### The operand resolver (R98 to R100) -/

theorem code_ne_six (r : Reg8) : r.code ≠ 6 := by
  cases r <;> decide

theorem resolveRegister_code (r : Reg8) : resolveRegister r.code.toNat = .ok r := by
  cases r <;> rfl

theorem resolve_imm (op : Byte) (off : FieldOffset) (s : State) :
    resolve true op off s = (fetchByte s).bind fun b s1 => .ok (.imm b) s1 := rfl

theorem resolve_ind {op : Byte} {off : FieldOffset} (code : off.code op = 6) (s : State) :
    resolve false op off s = .ok (.ind s.hl) s := by
  simp only [resolve, Bool.false_eq_true, code, if_true, if_false]

theorem resolve_reg {op : Byte} {off : FieldOffset} {r : Reg8} (code : r.code = off.code op) (s : State) :
    resolve false op off s = .ok (.reg r) s := by
  simp only [resolve, Bool.false_eq_true, ← code, code_ne_six, resolveRegister_code, if_false]

/-- Settles O7: `Resolve` by its immediate flag and its code, the codes by `extract_bits`, and `ReadOperand` and
`WriteOperand` by the kind of the operand. -/
theorem operandResolver : Obligations.OperandResolver := by
  refine ⟨resolve_imm, fun _ _ s code => resolve_ind code s, fun _ _ s _ code => resolve_reg code s, ?codes, ?reads, ?writes⟩
  case codes => exact fun op => ⟨FieldOffset.code_low op, FieldOffset.code_high op⟩
  case reads => exact fun r a b s => ⟨readOperand_reg r s, readOperand_ind a s, readOperand_imm b s⟩
  case writes => exact fun r a b v s => ⟨writeOperand_reg r v s, writeOperand_ind a v s, writeOperand_imm b v s⟩

end Sys2Proof.Proofs
end

section
/-! PROOFS. The jump of 40_control.md R125: a step of a running core at a one-byte instruction, and JP HL as one of these. -/

namespace Sys2Proof.Proofs
open Sys2Proof Sys2Proof.Machine Sys2Proof.Claims Sys2Proof.Laws

/-- A running core with a one-byte instruction at PC executes it past its byte, one tick later (30_encoding.md R95). -/
theorem step_plain {s : State} {op : Byte} {i : Instr} (ready : Ready s [op]) (row : rowOf op = .plain i) :
    step s = exec i (advanced s 1 1) := by
  obtain ⟨running, opcode, -⟩ := ready
  exact step_of_fetched running (fetchInstr_plain opcode row)

theorem rowOf_jpHL : rowOf 0xE9 = .plain .jpHL := rfl

theorem exec_jpHL (s : State) : exec .jpHL s = .next { s with pc := compose16 s.l s.h } := rfl

/-- Settles O43: the row of 0xE9 decodes it, and the fetch that the step adds to `exec` leaves H and L as they are. -/
theorem jumpToHl : Obligations.JumpToHl := by
  refine ⟨decode_plain rowOf_jpHL [], exec_jpHL, fun s ready => ?_⟩
  calc step s = exec .jpHL (advanced s 1 1) := step_plain ready rowOf_jpHL
    _ = .next { s with pc := compose16 s.l s.h, mcycles := s.mcycles + 1 } := exec_jpHL _

end Sys2Proof.Proofs
end

section
/-! PROOFS. The load group of 41_load.md R140 to R142: the three shapes of LD by the form of the instruction, and which
addresses HL can be read and written at. -/

namespace Sys2Proof.Proofs
open Sys2Proof Sys2Proof.Machine Sys2Proof.Claims Sys2Proof.Laws

/-! ### A step at a one-byte instruction -/

/-- The byte of a one-byte instruction is its row of the decode table. -/
theorem rowOf_of_encodes {op : Byte} {i : Instr} (encoded : Encodes [op] i) : rowOf op = .plain i := by
  obtain ⟨_, row, bytes⟩ | ⟨_, _, _, _, _, bytes⟩ | ⟨_, _, _, _, _, _, bytes⟩ := decode_cases encoded
  · cases bytes
    exact row
  · cases bytes
  · cases bytes

theorem step_of_encodes {s : State} {op : Byte} {i : Instr} (encoded : Encodes [op] i) (ready : Ready s [op]) :
    step s = exec i (advanced s 1 1) :=
  step_plain ready (rowOf_of_encodes encoded)

@[simp] theorem advanced_reg (s : State) (n : Word) (t : Nat) (r : Reg8) : (advanced s n t).reg r = s.reg r := by
  cases r <;> rfl

theorem advanced_zero_one (s : State) : advanced s 0 1 = s.tick := by
  simp [advanced, State.tick]

/-! ### The addresses that reach a byte (R54 to R57) -/

section FixedBanks
variable {m : MemoryMap} (fixed : m.banksFixed = true)
include fixed

/-- With the bank indices of construction, a cell is missing only past the ROM image and in an absent external-RAM bank. -/
theorem cell_present_iff {a : Word} {st : Store} {i : Nat} (cell : m.cellOf a.toNat = some (st, i)) :
    i < m.size st ↔
      (a.toNat ≤ 0x7FFF → a.toNat < m.romLength) ∧ (0xA000 ≤ a.toNat ∧ a.toNat ≤ 0xBFFF → 2 ≤ m.mEram) := by
  have window := regionOf_window (Nat.le_of_lt_succ a.isLt)
  simp only [MemoryMap.banksFixed, Bool.and_eq_true, beq_iff_eq] at fixed
  cases region : regionOf a.toNat <;> rw [region] at window <;> rw [MemoryMap.cellOf, region] at cell <;> cases cell
  all_goals
    simp only [MemoryMap.size, Region.window] at window ⊢
    omega

theorem exists_read_eq_ok_iff (a : Word) :
    (∃ v, m.read a = .ok v) ↔
      (a.toNat ≤ 0x7FFF → a.toNat < m.romLength) ∧ (0xA000 ≤ a.toNat ∧ a.toNat ≤ 0xBFFF → 2 ≤ m.mEram) := by
  obtain ⟨region, read⟩ | ⟨st, i, -, cell, present, read⟩ | ⟨st, i, -, cell, absent, read⟩ := m.read_cases a
  · have window := regionOf_window (Nat.le_of_lt_succ a.isLt)
    simp only [region, Region.window] at window
    exact ⟨fun _ => ⟨by omega, by omega⟩, fun _ => ⟨_, read⟩⟩
  · exact ⟨fun _ => (cell_present_iff fixed cell).mp present, fun _ => ⟨_, read⟩⟩
  · simp only [← cell_present_iff fixed cell, absent, read, reduceCtorEq, exists_false]

end FixedBanks

/-- A store through a writable address succeeds (R55), and is read back from its own cell only. -/
theorem exists_storedAt {s : State} {a : Word} (inv : s.Inv) (writable : Writable s a) (v : Byte) :
    ∃ m, StoredAt s.mem a v m := by
  obtain ⟨-, fixed, wf⟩ := inv
  obtain ⟨aboveRom, notProhibited, eramPresent⟩ := writable
  have aboveRom : ¬ a.toNat ≤ 0x7FFF := Nat.not_le_of_lt aboveRom
  have window := regionOf_window (Nat.le_of_lt_succ a.isLt)
  obtain ⟨st, i, cell⟩ := s.mem.cellOf_some (a := a) fun region => notProhibited (by rwa [region] at window)
  have present : i < s.mem.size st := (cell_present_iff fixed cell).mpr ⟨fun inRom => absurd inRom aboveRom, eramPresent⟩
  have write := write_cell cell aboveRom present v
  exact ⟨_, write, MemoryMap.read_write_same wf write rfl, fun x other => MemoryMap.read_write_other write other⟩

/-- The window of an absent external-RAM bank, at whatever bank index. -/
theorem write_absent_eram {m : MemoryMap} {a : Word} (v : Byte) (window : 0xA000 ≤ a.toNat ∧ a.toNat ≤ 0xBFFF)
    (absent : m.mEram ≤ m.eramBank) : m.write a v = .error (.outOfBounds a) := by
  have cell : m.cellOf a.toNat = some (.eram, m.eramBank * 8192 + (a.toNat - 0xA000)) := by
    rw [MemoryMap.cellOf, regionOf_eq (r := .eram) window.1 window.2]
  refine write_absent_cell cell (by omega) ?_ v
  simp only [MemoryMap.size]
  omega

/-! ### The three shapes of LD -/

section Exec
variable {i : Instr} {dst r : Reg8} {s : State}

theorem exec_ldRegReg (form : i.form = .ld (.reg dst) (.reg r)) : exec i s = .next (s.setReg dst (s.reg r)) := by
  rw [exec_eq_form, form]
  rfl

theorem exec_ldRegHl {v : Byte} (form : i.form = .ld (.reg dst) .atHL) (read : s.mem.read s.hl = .ok v) :
    exec i s = .next (s.tick.setReg dst v) := by
  rw [exec_eq_form, form]
  simp only [formMeaning, loadOperand, State.operand_atHL, readOperand_ind, memRead_ok read, Res.bind_ok,
    State.operand_reg, writeOperand_reg, Res.outcome_ok]

theorem exec_ldRegHl_fault {x : Fault} (form : i.form = .ld (.reg dst) .atHL) (read : s.mem.read s.hl = .error x) :
    exec i s = .next (s.tick.raise x) := by
  rw [exec_eq_form, form]
  simp only [formMeaning, loadOperand, State.operand_atHL, readOperand_ind, memRead_error read, Res.bind_raised,
    Res.outcome_raised]

theorem exec_ldHlReg {m : MemoryMap} (form : i.form = .ld .atHL (.reg r)) (write : s.mem.write s.hl (s.reg r) = .ok m) :
    exec i s = .next { s.tick with mem := m } := by
  rw [exec_eq_form, form]
  simp only [formMeaning, loadOperand, State.operand_reg, readOperand_reg, Res.bind_ok, State.operand_atHL,
    writeOperand_ind, memWrite_ok write, Res.outcome_ok]

theorem exec_ldHlReg_fault {x : Fault} (form : i.form = .ld .atHL (.reg r))
    (write : s.mem.write s.hl (s.reg r) = .error x) : exec i s = .next (s.tick.raise x) := by
  rw [exec_eq_form, form]
  simp only [formMeaning, loadOperand, State.operand_reg, readOperand_reg, Res.bind_ok, State.operand_atHL,
    writeOperand_ind, memWrite_error write, Res.outcome_raised]

end Exec

/-! ### The rows of the group -/

/-- The opcodes carry the codes of destination and source as R91 places them. -/
theorem ldRegRegRows_encode : ∀ row ∈ ldRegRegRows,
    Encodes [row.1] row.2.1 ∧ row.1 = 0b01#2 ++ row.2.2.1.code ++ row.2.2.2.code ∧
      row.2.1.form = .ld (.reg row.2.2.1) (.reg row.2.2.2) := by
  simp only [Encodes]
  decide

theorem ldRegHlRows_encode : ∀ row ∈ ldRegHlRows,
    Encodes [row.1] row.2.1 ∧ row.2.1.form = .ld (.reg row.2.2) .atHL := by
  simp only [Encodes]
  decide

theorem ldHlRegRows_encode : ∀ row ∈ ldHlRegRows,
    Encodes [row.1] row.2.1 ∧ row.2.1.form = .ld .atHL (.reg row.2.2) := by
  simp only [Encodes]
  decide

/-! ### The statements -/

/-- Settles O44: a register move by its form, whose step adds the fetch, which leaves the registers as they are. -/
theorem loadRegisterFromRegister : Obligations.LoadRegisterFromRegister := by
  intro op i dst r row
  obtain ⟨encoded, fields, form⟩ := ldRegRegRows_encode _ row
  refine ⟨encoded, fields, fun s => exec_ldRegReg form, fun s ready => ?step, ?self⟩
  case step => rw [step_of_encodes encoded ready, exec_ldRegReg form, advanced_reg]
  case self =>
    rintro rfl s
    rw [exec_ldRegReg form, State.setReg_self]

/-- Settles O45: the load goes by what the read of HL gives; the fetch of the step changes neither HL nor memory. -/
theorem loadRegisterFromMemory : Obligations.LoadRegisterFromMemory := by
  refine ⟨fun s ⟨_, fixed, _⟩ => exists_read_eq_ok_iff fixed s.hl,
    fun s window => read_prohibited s.mem (regionOf_eq_prohibited window), fun op i dst row => ?_⟩
  obtain ⟨encoded, form⟩ := ldRegHlRows_encode _ row
  refine ⟨encoded, fun s v read => ?exec, fun s v ready read => ?step,
    fun s x read => ⟨MemoryMap.read_error read, ?execFault, fun ready => ?stepFault⟩⟩
  case exec => rw [advanced_zero_one, exec_ldRegHl form read]
  case step => exact (step_of_encodes encoded ready).trans (exec_ldRegHl form read)
  case execFault => rw [advanced_zero_one, exec_ldRegHl_fault form read, State.raise]
  case stepFault => exact (step_of_encodes encoded ready).trans (exec_ldRegHl_fault form read)

/-- Settles O46: the store goes by what the write at HL gives, for each of its windows; the fetch of the step changes neither
the registers nor memory. -/
theorem storeRegisterToMemory : Obligations.StoreRegisterToMemory := by
  intro op i r row
  obtain ⟨encoded, form⟩ := ldHlRegRows_encode _ row
  refine ⟨encoded, fun s inv writable => ?stored, fun s x windows => ?fault⟩
  case stored =>
    obtain ⟨m, stored⟩ := exists_storedAt inv writable (s.reg r)
    have write : s.mem.write s.hl (s.reg r) = .ok m := stored.1
    refine ⟨m, stored, ?_, fun ready => ?_⟩
    · rw [advanced_zero_one, exec_ldHlReg form write]
    · rw [step_of_encodes encoded ready]
      exact exec_ldHlReg form (by rw [advanced_reg]; exact write)
  case fault =>
    have write : s.mem.write s.hl (s.reg r) = .error x := by
      obtain ⟨inRom, rfl⟩ | ⟨window, rfl⟩ | ⟨window, absent, rfl⟩ := windows
      · exact write_readOnly s.mem _ inRom
      · exact write_prohibited s.mem _ window
      · exact write_absent_eram _ window absent
    refine ⟨?_, fun ready => ?_⟩
    · rw [advanced_zero_one, exec_ldHlReg_fault form write, State.raise]
    · rw [step_of_encodes encoded ready]
      exact exec_ldHlReg_fault form (by rw [advanced_reg]; exact write)

end Sys2Proof.Proofs
end

section
/-! PROOFS. The arithmetic and logic of 42_alu.md: what ADD, SUB, AND, XOR, OR and CP leave on each of their three operand
forms (R160 to R186), and INC and DEC of a register (R187, R188, R190). -/

namespace Sys2Proof.Proofs
open Sys2Proof Sys2Proof.Machine Sys2Proof.Claims Sys2Proof.Laws

/-! ### A step at an instruction with one immediate byte -/

/-- A running core with a two-byte instruction at PC executes it past both bytes, two ticks later (30_encoding.md R95). -/
theorem step_imm8 {s : State} {op n : Byte} {f : Byte → Instr} (ready : Ready s [op, n]) (row : rowOf op = .imm8 f) :
    step s = exec (f n) (advanced s 2 2) := by
  obtain ⟨running, opcode, immediate, -⟩ := ready
  have pastBoth : s.pc + 1 + 1 = s.pc + 2 := BitVec.add_assoc ..
  rw [step_of_fetched running (fetchInstr_imm8 opcode immediate row), pastBoth]
  rfl

/-! ### Addition and subtraction without a carry in (R160, R161), and by one (R187) -/

theorem ofInt_toNat_sub (a v : Byte) : BitVec.ofInt 8 ((a.toNat : Int) - v.toNat) = a - v := by
  simp only [Int.sub_eq_add_neg, BitVec.ofInt_add, BitVec.ofInt_neg, BitVec.ofInt_natCast, BitVec.ofNat_toNat,
    BitVec.setWidth_eq, BitVec.sub_eq_add_neg]

/-- Without a carry in, CARRY_IN_MODE makes no difference. -/
theorem add8_false (mode : CarryInMode) (a v : Byte) :
    add8 mode a v false =
      { r := a + v, h := decide (a.toNat % 16 + v.toNat % 16 > 0xF), c := decide (a.toNat + v.toNat > 0xFF) } := by
  have inByte : v.toNat % 256 = v.toNat := Nat.mod_eq_of_lt v.isLt
  cases mode <;> simp only [add8, Bool.toNat_false, Nat.add_zero, inByte, ← BitVec.add_def]

theorem sub8_false (mode : CarryInMode) (a v : Byte) :
    sub8 mode a v false =
      { r := a - v, h := decide (a.toNat % 16 < v.toNat % 16), c := decide (a.toNat < v.toNat) } := by
  have inByte : v.toNat % 256 = v.toNat := Nat.mod_eq_of_lt v.isLt
  cases mode <;>
    simp only [sub8, Bool.toNat_false, Nat.add_zero, Int.natCast_zero, Int.sub_zero, inByte, ofInt_toNat_sub]

theorem inc8_eq (v : Byte) : inc8 v = { r := v + 1, h := decide (v.toNat % 16 = 0xF) } := by
  have fromTop : v.toNat % 16 + 1 > 0xF ↔ v.toNat % 16 = 0xF := by omega
  have sum : BitVec.ofNat 8 (v.toNat + 1) = v + 1 := (BitVec.add_def v 1).symm
  simp only [inc8, fromTop, sum]

theorem dec8_eq (v : Byte) : dec8 v = { r := v - 1, h := decide (v.toNat % 16 = 0) } := by
  have difference : BitVec.ofInt 8 ((v.toNat : Int) - 1) = v - 1 := ofInt_toNat_sub v 1
  simp only [dec8, Nat.lt_one_iff, difference]

/-! ### The common sequence (R162) -/

/-- The state that operation `o` leaves when its operand gave `v`. -/
def aluNext (o : AluOp) (s : State) (v : Byte) : State :=
  s.aluWrite o (aluCompute s.config.carryInMode o s.a v (s.flag .c))

section Exec
variable {i : Instr} {o : AluOp} {s : State}

theorem exec_aluReg {r : Reg8} (form : i.form = .alu o (.reg r)) : exec i s = .next (aluNext o s (s.reg r)) := by
  rw [exec_eq_form, form]
  rfl

theorem exec_aluHl {v : Byte} (form : i.form = .alu o .atHL) (read : s.mem.read s.hl = .ok v) :
    exec i s = .next (aluNext o s.tick v) := by
  rw [exec_eq_form, form]
  simp only [formMeaning, aluOperand, State.operand_atHL, readOperand_ind, memRead_ok read, Res.bind_ok, Res.outcome_ok,
    aluNext]

theorem exec_aluImm {n : Byte} (form : i.form = .aluImm o n) : exec i s = .next (aluNext o s n) := by
  rw [exec_eq_form, form]
  rfl

end Exec

/-- An operation that leaves `result` leaves it on each operand form, at the opcodes whose instructions are its own. -/
theorem aluForms_of_aluNext {o : AluOp} {rows : List (Byte × Instr × Reg8)} {hlOp immOp : Byte} {hlInstr : Instr}
    {immInstr : Byte → Instr} {result : State → Byte → State} (leaves : ∀ s v, aluNext o s v = result s v)
    (regRows : ∀ row ∈ rows, decode [row.1] = .ok (row.2.1, []) ∧ row.2.1.form = .alu o (.reg row.2.2))
    (hlRow : rowOf hlOp = .plain hlInstr) (hlForm : hlInstr.form = .alu o .atHL)
    (immRow : rowOf immOp = .imm8 immInstr) (immForm : ∀ n, (immInstr n).form = .aluImm o n) :
    AluForms rows hlOp hlInstr immOp immInstr result := by
  obtain rfl : aluNext o = result := funext₂ leaves
  refine ⟨fun op i r row => ?register, ?atHL, fun n => ?immediate⟩
  case register =>
    obtain ⟨encoded, form⟩ := regRows _ row
    refine ⟨encoded, fun s => exec_aluReg form, fun s ready => ?_⟩
    rw [step_of_encodes encoded ready, exec_aluReg form, advanced_reg]
  case atHL =>
    refine ⟨decode_plain hlRow [], fun s v read => ?_, fun s v ready read => ?_⟩
    · rw [advanced_zero_one, exec_aluHl hlForm read]
    · exact (step_plain ready hlRow).trans (exec_aluHl hlForm read)
  case immediate =>
    exact ⟨decode_imm8 immRow n [], fun s => exec_aluImm (immForm n),
      fun s ready => (step_imm8 ready immRow).trans (exec_aluImm (immForm n))⟩

/-! ### What each operation leaves -/

theorem aluNext_add (s : State) (v : Byte) : aluNext .add s v = addResult s v := by
  rw [aluNext, aluCompute, add8_false]
  rfl

theorem aluNext_sub (s : State) (v : Byte) : aluNext .sub s v = subResult s v := by
  rw [aluNext, aluCompute, sub8_false]
  rfl

theorem aluNext_cp (s : State) (v : Byte) : aluNext .cp s v = cpResult s v := by
  rw [aluNext, aluCompute, sub8_false]
  rfl

theorem aluNext_and (s : State) (v : Byte) : aluNext .and s v = andResult s v := rfl

theorem aluNext_xor (s : State) (v : Byte) : aluNext .xor s v = xorResult s v := rfl

theorem aluNext_or (s : State) (v : Byte) : aluNext .or s v = orResult s v := rfl

/-- Settles O48: ADD is `add8` without a carry in. -/
theorem addWritesSumAndFlags : Obligations.AddWritesSumAndFlags :=
  aluForms_of_aluNext aluNext_add (by decide) rfl rfl rfl fun _ => rfl

/-- Settles O50: SUB is `sub8` without a carry in. -/
theorem subWritesDifferenceAndFlags : Obligations.SubWritesDifferenceAndFlags :=
  aluForms_of_aluNext aluNext_sub (by decide) rfl rfl rfl fun _ => rfl

/-- Settles O52: AND is the logic operation with the half-carry set. -/
theorem andSetsHalfCarry : Obligations.AndSetsHalfCarry :=
  aluForms_of_aluNext aluNext_and (by decide) rfl rfl rfl fun _ => rfl

/-- Settles O53: XOR is a logic operation with the half-carry cleared. -/
theorem xorClearsOtherFlags : Obligations.XorClearsOtherFlags :=
  aluForms_of_aluNext aluNext_xor (by decide) rfl rfl rfl fun _ => rfl

/-- Settles O54: OR is a logic operation with the half-carry cleared. -/
theorem orClearsOtherFlags : Obligations.OrClearsOtherFlags :=
  aluForms_of_aluNext aluNext_or (by decide) rfl rfl rfl fun _ => rfl

/-- Settles O55: CP computes what SUB does, and the common sequence does not write A for it. -/
theorem compareKeepsA : Obligations.CompareKeepsA :=
  aluForms_of_aluNext aluNext_cp (by decide) rfl rfl rfl fun _ => rfl

/-! ### INC and DEC of a register (R188, R190) -/

section Exec
variable {i : Instr} {r : Reg8} {s : State}

theorem exec_incReg (form : i.form = .inc (.reg r)) :
    exec i s = .next { s.setReg r (s.reg r + 1) with
      f := countFlags s (s.reg r + 1) false (decide ((s.reg r).toNat % 16 = 0xF)) } := by
  rw [exec_eq_form, form]
  simp only [formMeaning, incOperand, State.operand_reg, readOperand_reg, writeOperand_reg, Res.bind_ok, Res.outcome_ok,
    inc8_eq, State.setFlags, State.flag, State.setReg_f]
  rfl

theorem exec_decReg (form : i.form = .dec (.reg r)) :
    exec i s = .next { s.setReg r (s.reg r - 1) with
      f := countFlags s (s.reg r - 1) true (decide ((s.reg r).toNat % 16 = 0)) } := by
  rw [exec_eq_form, form]
  simp only [formMeaning, decOperand, State.operand_reg, readOperand_reg, writeOperand_reg, Res.bind_ok, Res.outcome_ok,
    dec8_eq, State.setFlags, State.flag, State.setReg_f]
  rfl

end Exec

theorem incRows_encode : ∀ row ∈ incRows, Encodes [row.1] row.2.1 ∧ row.2.1.form = .inc (.reg row.2.2) := by
  simp only [Encodes]
  decide

theorem decRows_encode : ∀ row ∈ decRows, Encodes [row.1] row.2.1 ∧ row.2.1.form = .dec (.reg row.2.2) := by
  simp only [Encodes]
  decide

/-- Settles O57: the count by the form of the row; the fetch of the step changes neither the registers nor F. -/
theorem incDecRegister : Obligations.IncDecRegister := by
  refine ⟨fun op i r row => ?inc, fun op i r row => ?dec⟩
  case inc =>
    obtain ⟨encoded, form⟩ := incRows_encode _ row
    refine ⟨encoded, fun s => exec_incReg form, fun s ready => ?_⟩
    rw [step_of_encodes encoded ready, exec_incReg form, advanced_reg]
    rfl
  case dec =>
    obtain ⟨encoded, form⟩ := decRows_encode _ row
    refine ⟨encoded, fun s => exec_decReg form, fun s ready => ?_⟩
    rw [step_of_encodes encoded ready, exec_decReg form, advanced_reg]
    rfl

end Sys2Proof.Proofs
end

section
/-! PROOFS. The clock is an output only (70_reset_and_hazards.md R268; 10_state.md R30): each operation of the model commutes
with moving the clock on, so every instruction, every fetch and the step do. -/

namespace Sys2Proof.Machine
open Sys2Proof Sys2Proof.Claims

/-- The state with its clock moved on by `n`. -/
def State.later (s : State) (n : Nat) : State := { s with mcycles := s.mcycles + n }

/-- What a statement leaves, with its clock moved on by `n`. -/
def Res.later {α : Type} (r : Res α) (n : Nat) : Res α :=
  match r with
  | .ok v s => .ok v (s.later n)
  | .raised s => .raised (s.later n)

variable (s : State) (n : Nat)

/-! ### What does not depend on the clock -/

@[simp] theorem State.later_a : (s.later n).a = s.a := rfl
@[simp] theorem State.later_pc : (s.later n).pc = s.pc := rfl
@[simp] theorem State.later_mem : (s.later n).mem = s.mem := rfl
@[simp] theorem State.later_status : (s.later n).status = s.status := rfl
@[simp] theorem State.later_unsupportedSeen : (s.later n).unsupportedSeen = s.unsupportedSeen := rfl
@[simp] theorem State.later_config : (s.later n).config = s.config := rfl
@[simp] theorem State.later_flag (fl : Flag) : (s.later n).flag fl = s.flag fl := rfl
@[simp] theorem State.later_relativeTarget (disp : Byte) : (s.later n).relativeTarget disp = s.relativeTarget disp := rfl

@[simp] theorem State.later_reg (r : Reg8) : (s.later n).reg r = s.reg r := by cases r <;> rfl
@[simp] theorem State.later_cond (cc : Cond) : (s.later n).cond cc = s.cond cc := by cases cc <;> rfl
@[simp] theorem State.later_operand (t : Slot) : (s.later n).operand t = s.operand t := by cases t <;> rfl

/-! ### The updates commute with a later clock -/

theorem State.tick_later : (s.later n).tick = s.tick.later n := by
  simp only [State.tick, State.later, Nat.add_right_comm]

theorem State.setReg_later (r : Reg8) (v : Byte) : (s.later n).setReg r v = (s.setReg r v).later n := by
  cases r <;> rfl

theorem State.aluWrite_later (o : AluOp) (x : AluOut) : (s.later n).aluWrite o x = (s.aluWrite o x).later n := by
  unfold State.aluWrite
  split <;> rfl

/-! ### Statements in sequence -/

theorem Res.bind_later {α β : Type} (r : Res α) {n : Nat} {k k' : α → State → Res β}
    (rest : ∀ v s, k' v (s.later n) = (k v s).later n) : (r.later n).bind k' = (r.bind k).later n := by
  cases r with
  | ok v s => exact rest v s
  | raised s => rfl

theorem Res.outcome_later (r : Res Unit) : (r.later n).outcome = laterBy n r.outcome := by
  cases r <;> rfl

/-! ### The accesses and the fetches -/

theorem memRead_later (a : Word) : memRead a (s.later n) = (memRead a s).later n := by
  unfold memRead
  rw [State.later_mem, State.tick_later]
  cases s.mem.read a <;> rfl

theorem memWrite_later (a : Word) (v : Byte) : memWrite a v (s.later n) = (memWrite a v s).later n := by
  unfold memWrite
  rw [State.later_mem, State.tick_later]
  cases s.mem.write a v <;> rfl

theorem fetchByte_later : fetchByte (s.later n) = (fetchByte s).later n := by
  unfold fetchByte
  rw [State.later_pc, memRead_later]
  exact Res.bind_later _ fun _ _ => rfl

theorem fetchInstr_later : fetchInstr (s.later n) = (fetchInstr s).later n := by
  unfold fetchInstr
  rw [fetchByte_later]
  refine Res.bind_later _ fun op s1 => ?_
  cases rowOf op with
  | plain i => rfl
  | imm8 f =>
    simp only [fetchByte_later]
    exact Res.bind_later _ fun _ _ => rfl
  | imm16 f =>
    simp only [fetchByte_later]
    refine Res.bind_later _ fun lo s2 => ?_
    rw [fetchByte_later]
    exact Res.bind_later _ fun _ _ => rfl

theorem readOperand_later (o : Operand) : readOperand o (s.later n) = (readOperand o s).later n := by
  cases o with
  | reg r => rw [readOperand_reg, State.later_reg]; rfl
  | ind a => exact memRead_later s n a
  | imm b => rfl

theorem writeOperand_later (o : Operand) (v : Byte) : writeOperand o v (s.later n) = (writeOperand o v s).later n := by
  cases o with
  | reg r => rw [writeOperand_reg, State.setReg_later]; rfl
  | ind a => exact memWrite_later s n a v
  | imm b => rfl

/-! ### The meanings -/

theorem takeBranch_later (target : Word) : takeBranch target (s.later n) = (takeBranch target s).later n := by
  unfold takeBranch
  rw [State.tick_later]
  rfl

theorem jumpAbsoluteIf_later (cc : Cond) (target : Word) :
    jumpAbsoluteIf cc target (s.later n) = (jumpAbsoluteIf cc target s).later n := by
  unfold jumpAbsoluteIf
  rw [State.later_cond, takeBranch_later]
  split <;> rfl

theorem jumpRelativeIf_later (cc : Cond) (disp : Byte) :
    jumpRelativeIf cc disp (s.later n) = (jumpRelativeIf cc disp s).later n := by
  unfold jumpRelativeIf
  rw [State.later_cond, State.later_relativeTarget, takeBranch_later]
  split <;> rfl

theorem loadOperand_later (dst src : Slot) : loadOperand dst src (s.later n) = (loadOperand dst src s).later n := by
  unfold loadOperand
  rw [State.later_operand, readOperand_later]
  refine Res.bind_later _ fun v s1 => ?_
  rw [State.later_operand, writeOperand_later]

theorem aluOperand_later (o : AluOp) (src : Operand) : aluOperand o src (s.later n) = (aluOperand o src s).later n := by
  unfold aluOperand
  rw [readOperand_later]
  refine Res.bind_later _ fun v s1 => ?_
  rw [State.later_config, State.later_a, State.later_flag, State.aluWrite_later]
  rfl

theorem incOperand_later (t : Slot) : incOperand t (s.later n) = (incOperand t s).later n := by
  unfold incOperand
  rw [State.later_operand, readOperand_later]
  refine Res.bind_later _ fun v s1 => ?_
  rw [writeOperand_later]
  exact Res.bind_later _ fun _ _ => rfl

theorem decOperand_later (t : Slot) : decOperand t (s.later n) = (decOperand t s).later n := by
  unfold decOperand
  rw [State.later_operand, readOperand_later]
  refine Res.bind_later _ fun v s1 => ?_
  rw [writeOperand_later]
  exact Res.bind_later _ fun _ _ => rfl

theorem unsupportedOpcode_later (op : Byte) : unsupportedOpcode op (s.later n) = (unsupportedOpcode op s).later n := by
  unfold unsupportedOpcode
  rw [State.later_config, State.later_unsupportedSeen]
  cases s.config.unsupportedPolicy with
  | marker => cases s.unsupportedSeen <;> rfl
  | refuse => rfl

theorem loadOrUnsupported_later (op : Byte) : loadOrUnsupported op (s.later n) = (loadOrUnsupported op s).later n := by
  unfold loadOrUnsupported
  rw [State.later_config, loadOperand_later, unsupportedOpcode_later]
  cases s.config.opc76Policy <;> rfl

/-- No form reads the clock (10_state.md R30). -/
theorem formMeaning_later (x : Form) : formMeaning x (s.later n) = (formMeaning x s).later n := by
  cases x with
  | nop => rfl
  | jp target => exact takeBranch_later s n target
  | jpCond cc target => exact jumpAbsoluteIf_later s n cc target
  | jr disp => exact takeBranch_later s n (s.relativeTarget disp)
  | jrCond cc disp => exact jumpRelativeIf_later s n cc disp
  | jpHL => rfl
  | ld dst src =>
    cases dst with
    | reg r => exact loadOperand_later s n (.reg r) src
    | atHL =>
      cases src with
      | reg q => exact loadOperand_later s n .atHL (.reg q)
      | atHL => exact loadOrUnsupported_later s n 0x76
  | alu o src =>
    simp only [formMeaning, State.later_operand]
    exact aluOperand_later s n o (s.operand src)
  | aluImm o v => exact aluOperand_later s n o (.imm v)
  | inc t => exact incOperand_later s n t
  | dec t => exact decOperand_later s n t
  | illegal op => rfl
  | unsupported op => exact unsupportedOpcode_later s n op

theorem exec_later (i : Instr) : exec i (s.later n) = laterBy n (exec i s) := by
  rw [exec_eq_form, exec_eq_form, formMeaning_later, Res.outcome_later]

theorem step_later : step (s.later n) = laterBy n (step s) := by
  unfold step
  rw [State.later_status, fetchInstr_later]
  cases s.status with
  | faulted f => rfl
  | refused pc op => rfl
  | running =>
    cases fetchInstr s with
    | ok i s1 => exact exec_later s1 n i
    | raised s1 => rfl

end Sys2Proof.Machine

namespace Sys2Proof.Proofs
open Sys2Proof Sys2Proof.Machine

/-- Settles O35: the fetches and the meaning of every form commute with moving the clock on, and a stopped core answers from
its status alone. -/
theorem clockIsAnOutputOnly : Obligations.ClockIsAnOutputOnly := step_later

end Sys2Proof.Proofs
end

section
/-! PROOFS. Decoding and encoding are inverse on the well-formed instructions (30_encoding.md section 1, formats, and section 4):
the opcode of a form selects the row that gives the instruction back, and how many immediate bytes a row takes. -/

namespace Sys2Proof.Proofs
open Sys2Proof Sys2Proof.Machine Sys2Proof.Claims Sys2Proof.Laws

/-! ### The decoder after the encoder (R101, R102) -/

/-- Only a target has to be put together from its bytes, and only a gap has to be well-formed. -/
theorem instrOf_rowOf_opcode (i : Instr) (wf : i.wf = true) :
    Row.instrOf (rowOf i.form.opcode) i.form.immediates = some i := by
  cases i with
  | illegal op => exact OpcodeRow.illegal op wf
  | unsupported op => exact OpcodeRow.unsupported op wf
  | jp target => exact OpcodeRow.jp target wf
  | jpNZ target => exact OpcodeRow.jpNZ target wf
  | jpZ target => exact OpcodeRow.jpZ target wf
  | jpNC target => exact OpcodeRow.jpNC target wf
  | jpC target => exact OpcodeRow.jpC target wf
  | _ => rfl

theorem decode_of_instrOf {op : Byte} {immediates : List Byte} {i : Instr}
    (yields : Row.instrOf (rowOf op) immediates = some i) (rest : List Byte) :
    decode (op :: immediates ++ rest) = .ok (i, rest) := by
  unfold Row.instrOf at yields
  split at yields <;> cases yields
  case h_1 row => exact decode_plain row rest
  case h_2 row => exact decode_imm8 row _ rest
  case h_3 row => exact decode_imm16 row _ _ rest

/-- Settles O19: the opcode selects the row of the instruction, and the row takes the immediates and leaves the tail. -/
theorem decodeOfEncodeIsIdentity : Obligations.DecodeOfEncodeIsIdentity :=
  fun i rest wf => decode_of_instrOf (instrOf_rowOf_opcode i wf) rest

theorem encodes_encode {i : Instr} (wf : i.wf = true) : Encodes (encode i) i := by
  simpa only [Encodes, List.append_nil] using decodeOfEncodeIsIdentity i [] wf

/-- No row takes more than two immediate bytes. -/
theorem exists_decode_eq_ok (op b1 b2 : Byte) (rest : List Byte) :
    ∃ i rest', decode (op :: b1 :: b2 :: rest) = .ok (i, rest') := by
  cases row : rowOf op with
  | plain i => exact ⟨i, _, decode_plain row _⟩
  | imm8 f => exact ⟨f b1, _, decode_imm8 row b1 _⟩
  | imm16 f => exact ⟨_, _, decode_imm16 row b1 b2 rest⟩

/-- Settles O20: what the decoder took is the encoding of what it answers, and two more bytes are enough for every row. -/
theorem encodeOfDecodeIsIdentity : Obligations.EncodeOfDecodeIsIdentity :=
  ⟨fun _ _ _ decoded => (encode_append_of_decode decoded).symm, exists_decode_eq_ok⟩

/-! ### The unsupported opcodes and the lengths (R105, R106) -/

theorem wf_unsupported_iff (op : Byte) : (Instr.unsupported op).wf = true ↔ op ∈ unsupportedOpcodes := List.contains_iff_mem

/-- How many immediate bytes a row takes. -/
def Row.immediateCount : Row → Nat
  | .plain _ => 0
  | .imm8 _ => 1
  | .imm16 _ => 2

theorem immediateCount_rowOf (op : Byte) :
    Row.immediateCount (rowOf op) =
      if op ∈ ([0xC2, 0xC3, 0xCA, 0xD2, 0xDA] : List Byte) then 2
      else if op ∈ ([0x18, 0x20, 0x28, 0x30, 0x38, 0xC6, 0xCE, 0xD6, 0xDE, 0xE6, 0xEE, 0xF6, 0xFE] : List Byte) then 1
      else 0 := by
  revert op
  decide

/-- The immediates taken are as many as the row says. -/
theorem exists_immediates_of_decode {op : Byte} {rest rest' : List Byte} {i : Instr}
    (decoded : decode (op :: rest) = .ok (i, rest')) :
    ∃ immediates : List Byte, immediates.length = Row.immediateCount (rowOf op) ∧ rest = immediates ++ rest' ∧
      encode i = op :: immediates := by
  have encoded := (encode_append_of_decode decoded).1
  obtain ⟨_, row, bytes⟩ | ⟨_, n, f, row, rfl, bytes⟩ | ⟨_, lo, hi, f, row, rfl, bytes⟩ := decode_cases decoded
    <;> cases bytes <;> rw [row]
  · exact ⟨[], rfl, rfl, (List.append_left_inj _).mp encoded⟩
  · exact ⟨[n], rfl, rfl, (List.append_left_inj _).mp encoded⟩
  · exact ⟨[lo, hi], rfl, rfl, (List.append_left_inj _).mp encoded⟩

/-- Settles O22: as for the illegal opcodes, the byte that an unsupported instruction carries is its encoding; the lengths are
the rows'. -/
theorem unsupportedSetAndLengths : Obligations.UnsupportedSetAndLengths := by
  refine ⟨fun op o rest rest' => ⟨fun decoded => ?_, ?_⟩, rfl, by decide, fun op rest rest' i decoded => ?lengths⟩
  · obtain ⟨bytes, wf⟩ := encode_append_of_decode decoded
    obtain ⟨rfl, rfl⟩ : o = op ∧ rest' = rest := List.cons.inj bytes
    exact ⟨(wf_unsupported_iff _).mp wf, rfl, rfl⟩
  · rintro ⟨unsupported, rfl, rfl⟩
    exact decodeOfEncodeIsIdentity (.unsupported _) _ ((wf_unsupported_iff _).mpr unsupported)
  case lengths =>
    obtain ⟨immediates, count, rfl, encoded⟩ := exists_immediates_of_decode decoded
    rw [encoded, List.length_cons, ← immediateCount_rowOf, ← count, List.take_left]
    refine ⟨rfl, ?_⟩
    rw [count, immediateCount_rowOf]
    split_ifs <;> rfl

/-- Settles O18: each word is evaluated through the table. -/
theorem sampleWordsDecode : Obligations.SampleWordsDecode :=
  ⟨rfl, rfl, rfl, rfl, rfl, rfl, rfl, rfl, rfl, rfl, rfl, rfl, rfl, rfl, rfl, rfl, rfl⟩

end Sys2Proof.Proofs
end

section
/-! PROOFS. The step of 30_encoding.md R95 and R109 by the bytes at PC: with every byte of an instruction readable it is exec of
that instruction, and with one missing it ends on that byte. -/

namespace Sys2Proof.Proofs
open Sys2Proof Sys2Proof.Machine Sys2Proof.Claims Sys2Proof.Laws

/-! ### With every byte readable -/

theorem step_imm16 {s : State} {op lo hi : Byte} {f : Word → Instr} (ready : Ready s [op, lo, hi])
    (row : rowOf op = .imm16 f) : step s = exec (f (compose16 lo hi)) (advanced s 3 3) := by
  obtain ⟨running, opcode, low, high, -⟩ := ready
  have pastAll : s.pc + 1 + 1 + 1 = s.pc + 3 := by rw [BitVec.add_assoc, BitVec.add_assoc]; rfl
  rw [step_of_fetched running (fetchInstr_imm16 opcode low high row), pastAll]
  rfl

/-- Settles O23: by the row of the opcode, a step fetches one, two or three bytes. -/
theorem stepRunsTheDecodedInstruction : Obligations.StepRunsTheDecodedInstruction := by
  intro s bytes i ready encoded
  obtain ⟨op, row, rfl⟩ | ⟨op, n, f, row, rfl, rfl⟩ | ⟨op, lo, hi, f, row, rfl, rfl⟩ := decode_cases encoded
  · exact step_plain ready row
  · exact step_imm8 ready row
  · exact step_imm16 ready row

/-- Settles O24: the step looks at the status first, and every instruction answers a next state. -/
theorem noStepFromATerminalStatus : Obligations.NoStepFromATerminalStatus := by
  refine ⟨fun s x faulted => ?_, fun s pc op refused => ?_, fun s running => ?_⟩
  · simp only [step, faulted]
  · simp only [step, refused]
  · cases fetched : fetchInstr s with
    | ok i s1 =>
      rw [step_of_fetched running fetched]
      exact exec_next i s1
    | raised s1 => exact ⟨s1, step_of_raised running fetched⟩

/-- Everything a step to a next state can be: the effect of the instruction whose bytes stand at PC, or the failed fetch of one
of its bytes. -/
theorem effect_of_step {s t : State} (h : step s = .next t) :
    (∃ i, i.wf = true ∧ BytesAt s s.pc (encode i) ∧
      Effect i.form (advanced s (BitVec.ofNat 16 (encode i).length) (encode i).length) t) ∨
    (∃ a n, (a = s.pc ∧ n = 1 ∨ a = s.pc + 1 ∧ n = 2 ∨ a = s.pc + 2 ∧ n = 3) ∧
      s.mem.read a = .error (.outOfBounds a) ∧
      t = { s with pc := a, mcycles := s.mcycles + n, status := .faulted (.outOfBounds a) }) := by
  have running := running_of_step h
  have ofBytes : ∀ bytes i, BytesAt s s.pc bytes → Encodes bytes i →
      ∃ i, i.wf = true ∧ BytesAt s s.pc (encode i) ∧
        Effect i.form (advanced s (BitVec.ofNat 16 (encode i).length) (encode i).length) t := by
    intro bytes i stand encoded
    obtain ⟨same, wf⟩ := encode_append_of_decode encoded
    obtain rfl : encode i = bytes := by rwa [List.append_nil] at same
    rw [stepRunsTheDecodedInstruction s _ i ⟨running, stand⟩ encoded] at h
    exact ⟨i, wf, stand, effect_of_exec h⟩
  obtain ⟨op, i, opcode, row, -⟩ | ⟨op, n, f, opcode, immediate, row, -⟩ | ⟨op, lo, hi, f, opcode, low, high, row, -⟩ |
    ⟨a, n, missing, unreadable, raised⟩ := fetchInstr_cases s
  · exact .inl (ofBytes [op] i ⟨opcode, trivial⟩ (decode_plain row []))
  · exact .inl (ofBytes [op, n] (f n) ⟨opcode, immediate, trivial⟩ (decode_imm8 row n []))
  · exact .inl (ofBytes [op, lo, hi] _ ⟨opcode, low, high, trivial⟩ (decode_imm16 row lo hi []))
  · rw [step_of_raised running raised] at h
    cases h
    rw [BitVec.add_assoc] at missing
    exact .inr ⟨a, n, missing, unreadable, rfl⟩

end Sys2Proof.Proofs
end

section
/-! PROOFS. What every instruction and every step keep: the frame of 10_state.md section 2, the invariant of 20_memory.md
section 1, the marker, the clock and the errors of 60_exceptions.md section 1, each derived from `Effect`, which says once what
an instruction can do. -/

namespace Sys2Proof.Machine
open Sys2Proof Sys2Proof.Claims

/-! ### Each field of the state after an instruction -/

section Effect
variable {x : Form} {s t : State} (effect : Effect x s t)
include effect

theorem Effect.sp_config : t.sp = s.sp ∧ t.config = s.config := by
  cases effect <;> simp

/-- Memory changes only by a store at HL. -/
theorem Effect.mem : t.mem = s.mem ∨ storesAtHl x = true ∧ ∃ v, s.mem.write s.hl v = .ok t.mem := by
  cases effect with
  | ldToHL _ _ _ write => exact .inr ⟨rfl, _, write⟩
  | ldHLHL _ _ _ _ _ write => exact .inr ⟨rfl, _, write⟩
  | incHL _ _ _ _ write => exact .inr ⟨rfl, _, write⟩
  | decHL _ _ _ _ write => exact .inr ⟨rfl, _, write⟩
  | _ => exact .inl (by simp)

/-- F changes only by SetFlags, in the ALU group and in INC and DEC. -/
theorem Effect.f : t.f = s.f ∨ writesFlags x = true ∧ ∃ z n h c, t.f = packFlags z n h c := by
  cases effect with
  | alu | aluHL | aluImm => exact .inr ⟨rfl, _, _, _, _, State.aluWrite_f _ _ _⟩
  | inc | dec | incHL | decHL => exact .inr ⟨rfl, _, _, _, _, State.setFlags_f _ _ _ _ _⟩
  | _ => exact .inl (by simp)

/-- INC and DEC pass C its old value (42_alu.md section 10). -/
theorem Effect.carry {slot : Slot} (count : x = .inc slot ∨ x = .dec slot) : t.f.getLsbD 4 = s.f.getLsbD 4 := by
  cases effect with
  | inc | dec | incHL | decHL =>
    rw [State.setFlags_f, packFlags_c]
    rfl
  | readFault | updateFault => rfl
  | marked | markedBefore | refused => rfl
  | _ => simp at count

theorem Effect.reg {r : Reg8} (other : destination x ≠ some r) : t.reg r = s.reg r := by
  cases effect with
  | ldReg dst => exact State.setReg_reg_other _ _ fun same => other (congrArg some same.symm)
  | ldFromHL dst =>
    rw [State.setReg_reg_other _ _ fun same => other (congrArg some same.symm), State.tick_reg]
  | inc dst | dec dst =>
    rw [State.setFlags_reg, State.setReg_reg_other _ _ fun same => other (congrArg some same.symm)]
  | alu o | aluHL o | aluImm o =>
    cases r
    case a => cases o <;> first | rfl | exact absurd rfl other
    all_goals simp [State.reg]
  | _ => cases r <;> rfl

theorem Effect.pc (falls : jumps x = false) : t.pc = s.pc := by
  cases effect with
  | jp | jpTaken | jr | jrTaken | jpHL => cases falls
  | _ => simp

/-- The marker is set from none only, by an unsupported opcode or by 0x76 read as one (10_state.md R33). -/
theorem Effect.unsupportedSeen : t.unsupportedSeen = s.unsupportedSeen ∨
    s.unsupportedSeen = none ∧ s.config.unsupportedPolicy = .marker ∧ mayMark x = true ∧
      ∃ op, t.unsupportedSeen = some (s.pc - 1, op) ∧
        (x = .unsupported op ∨ x = .ld .atHL .atHL ∧ op = 0x76 ∧ s.config.opc76Policy = .unsupported) := by
  cases effect with
  | marked _ op _ gap policy unmarked =>
    have may : mayMark x = true := by obtain rfl | ⟨rfl, -⟩ := gap <;> rfl
    exact .inr ⟨unmarked, policy, may, op, rfl, gap⟩
  | _ => exact .inl (by simp)

/-- Beyond the fetches, an instruction ticks at most as often as leaves it 4 ticks in all. -/
theorem Effect.mcycles_bounds : s.mcycles ≤ t.mcycles ∧ t.mcycles + x.immediates.length ≤ s.mcycles + 3 := by
  cases effect with
  | readFault _ _ forms =>
    obtain ⟨_, rfl⟩ | ⟨rfl, -⟩ | ⟨_, rfl⟩ | rfl | rfl := forms <;> simp [Form.immediates]
  | updateFault _ _ _ _ _ forms =>
    obtain ⟨rfl, -⟩ | ⟨rfl, -⟩ | ⟨rfl, -⟩ := forms <;> simp [Form.immediates, Nat.add_assoc]
  | marked _ _ _ gap | markedBefore _ _ _ gap | refused _ _ _ gap =>
    obtain rfl | ⟨rfl, -⟩ := gap <;> simp [Form.immediates]
  | _ => simp [Form.immediates, Nat.add_assoc]

/-- An instruction that completes makes, with the fetches of its bytes, the ticks of the cycle table. -/
theorem Effect.mcycles_eq (done : t.status = .running ∨ isGap x = true) :
    t.mcycles + (x.immediates.length + 1) = s.mcycles + cycles x s := by
  cases effect with
  | readFault _ _ forms =>
    obtain ⟨_, rfl⟩ | ⟨rfl, -⟩ | ⟨_, rfl⟩ | rfl | rfl := forms <;> simp [isGap] at done
  | updateFault _ _ _ _ _ forms =>
    obtain ⟨rfl, -⟩ | ⟨rfl, -⟩ | ⟨rfl, -⟩ := forms <;> simp [isGap] at done
  | storeFault => simp [isGap] at done
  | marked _ _ _ gap | markedBefore _ _ _ gap =>
    obtain rfl | ⟨rfl, -, policy⟩ := gap <;> simp [Form.immediates, cycles, *]
  | refused _ _ _ gap =>
    obtain rfl | ⟨rfl, -⟩ := gap
    · rfl
    · simp [isGap] at done
  | jpTaken | jpNot | jrTaken | jrNot | ldHLHL => simp [Form.immediates, cycles, *]
  | _ => simp [Form.immediates, cycles, slotTicks]

/-- The errors an instruction of a running core can raise (60_exceptions.md R231). -/
theorem Effect.faulted {f : Fault} (running : s.status = .running) (faulted : t.status = .faulted f) :
    (f = .outOfBounds s.hl ∧ s.mem.read s.hl = .error f) ∨
    (storesAtHl x = true ∧ ∃ v, s.mem.write s.hl v = .error f) ∨
    (∃ op, x = .illegal op ∧ f = .illegalOpcode (s.pc - 1) op) := by
  cases effect with
  | readFault _ _ _ read =>
    cases faulted
    exact .inl ⟨rfl, read⟩
  | storeFault _ _ _ write =>
    cases faulted
    exact .inr (.inl ⟨rfl, _, write⟩)
  | updateFault _ _ _ _ _ forms _ write =>
    cases faulted
    have stores : storesAtHl x = true := by obtain ⟨rfl, -⟩ | ⟨rfl, -⟩ | ⟨rfl, -⟩ := forms <;> rfl
    exact .inr (.inl ⟨stores, _, write⟩)
  | illegal op =>
    cases faulted
    exact .inr (.inr ⟨op, rfl, rfl⟩)
  | refused => cases faulted
  | _ => simp [running] at faulted

end Effect

end Sys2Proof.Machine

namespace Sys2Proof.Proofs
open Sys2Proof Sys2Proof.Machine Sys2Proof.Claims Sys2Proof.Laws

/-! ### Memory after a store (20_memory.md section 6) -/

theorem banksFixed_of_write {m m' : MemoryMap} {a : Word} {v : Byte} (write : m.write a v = .ok m') :
    m'.banksFixed = m.banksFixed := by
  obtain ⟨-, -, -, romBank, vramBank, eramBank, wramBank⟩ := MemoryMap.write_frame write
  simp only [MemoryMap.banksFixed, romBank, vramBank, eramBank, wramBank]

/-- No store reaches ROM. -/
theorem read_rom_of_write {m m' : MemoryMap} {a w : Word} {v : Byte} (write : m.write a v = .ok m')
    (inRom : w.toNat ≤ 0x7FFF) : m'.read w = m.read w := by
  obtain ⟨-, -, st, i, cell, notRom, -⟩ := MemoryMap.write_ok write
  obtain ⟨j, romCell⟩ := exists_cellOf_eq_rom m inRom
  refine MemoryMap.read_write_other write ?_
  rw [romCell, cell]
  exact fun same => notRom (congrArg Prod.fst (Option.some.inj same)).symm

/-- What a failing write at an address says of the address. -/
theorem write_error_cases {m : MemoryMap} {a : Word} {v : Byte} {f : Fault} (write : m.write a v = .error f) :
    (f = .readOnlyWrite a ∧ a.toNat ≤ 0x7FFF) ∨
    (f = .prohibitedRegion a ∧ 0xFEA0 ≤ a.toNat ∧ a.toNat ≤ 0xFEFF) ∨
    (f = .outOfBounds a ∧ m.read a = .error f) := by
  obtain ⟨inRom, rfl⟩ | ⟨-, region, rfl⟩ | ⟨-, -, rfl, st, i, cell, absent⟩ := MemoryMap.write_error write
  · exact .inl ⟨rfl, inRom⟩
  · have window := regionOf_window (Nat.le_of_lt_succ a.isLt)
    rw [region] at window
    exact .inr (.inl ⟨rfl, window⟩)
  · exact .inr (.inr ⟨rfl, read_absent_cell cell absent⟩)

/-! ### The frame of an instruction -/

/-- Settles O37: field by field, from what the instruction's effect is. -/
theorem frameOfEveryInstruction : Obligations.FrameOfEveryInstruction := by
  intro i s t h
  have effect := effect_of_exec h
  obtain ⟨sp, config⟩ := effect.sp_config
  refine ⟨fun r => effect.reg, ?flags, fun slot => effect.carry, sp, config, effect.pc, ?marker, ?memory, ?cells⟩
  case flags =>
    intro keeps
    obtain same | ⟨writes, -⟩ := effect.f
    · exact same
    · rw [keeps] at writes
      cases writes
  case marker =>
    intro keeps
    obtain same | ⟨-, -, may, -⟩ := effect.unsupportedSeen
    · exact same
    · rw [keeps] at may
      cases may
  case memory =>
    intro keeps
    obtain same | ⟨stores, -⟩ := effect.mem
    · exact same
    · rw [keeps] at stores
      cases stores
  case cells =>
    rintro _ rfl w other
    obtain same | ⟨-, v, write⟩ := effect.mem
    · rw [same]
    · exact MemoryMap.read_write_other write other

/-! ### What every step keeps -/

theorem inv_of_effect {x : Form} {s t : State} (effect : Effect x s t) (inv : s.Inv) : t.Inv := by
  obtain ⟨low, fixed, wf⟩ := inv
  refine ⟨?_, ?_⟩
  · obtain same | ⟨-, z, n, h, c, flags⟩ := effect.f
    · rwa [same]
    · rw [flags, packFlags_low]
  · obtain same | ⟨-, v, write⟩ := effect.mem
    · rw [same]
      exact ⟨fixed, wf⟩
    · exact ⟨(banksFixed_of_write write).trans fixed, MemoryMap.write_wf wf write⟩

/-- Settles O30: the fetches touch neither F nor memory, and an instruction keeps the form of both. -/
theorem stepKeepsTheInvariant : Obligations.StepKeepsTheInvariant := by
  intro s t inv h
  obtain ⟨i, -, -, effect⟩ | ⟨a, n, -, -, rfl⟩ := effect_of_step h
  · exact inv_of_effect effect inv
  · exact inv

/-- A step leaves memory as it was or stores one byte at HL. -/
theorem mem_of_step {s t : State} (h : step s = .next t) : t.mem = s.mem ∨ ∃ v, s.mem.write s.hl v = .ok t.mem := by
  obtain ⟨i, -, -, effect⟩ | ⟨a, n, -, -, rfl⟩ := effect_of_step h
  · exact effect.mem.imp_right And.right
  · exact .inl rfl

theorem sp_config_of_step {s t : State} (h : step s = .next t) : t.sp = s.sp ∧ t.config = s.config := by
  obtain ⟨i, -, -, effect⟩ | ⟨a, n, -, -, rfl⟩ := effect_of_step h
  · exact effect.sp_config
  · exact ⟨rfl, rfl⟩

/-- Settles O31: a store changes no size, no bank index and no cell of ROM. -/
theorem stepNeverChangesFixedState : Obligations.StepNeverChangesFixedState := by
  intro s t h
  obtain ⟨sp, config⟩ := sp_config_of_step h
  refine ⟨sp, config, ?_⟩
  obtain same | ⟨v, write⟩ := mem_of_step h
  · rw [same]
    exact ⟨rfl, rfl, rfl, rfl, rfl, rfl, rfl, fun _ _ => rfl⟩
  · obtain ⟨rom, romLength, mEram, romBank, vramBank, eramBank, wramBank⟩ := MemoryMap.write_frame write
    exact ⟨rom, romLength, mEram, romBank, vramBank, eramBank, wramBank, fun _ => read_rom_of_write write⟩

/-! ### The errors of a step -/

theorem opcode_mem_storingOpcodes {x : Form} (stores : storesAtHl x = true) : x.opcode ∈ storingOpcodes := by
  cases x with
  | ld dst src =>
    cases dst with
    | reg r => cases stores
    | atHL => cases src with
      | reg r => cases r <;> decide
      | atHL => decide
  | inc slot => cases slot with
    | reg r => cases stores
    | atHL => decide
  | dec slot => cases slot with
    | reg r => cases stores
    | atHL => decide
  | _ => cases stores

/-- PC past a one-byte instruction, less one, is the address of its opcode (43_illegal_unsupported.md R220). -/
theorem advanced_one_pc_sub_one (s : State) (n : Nat) : (advanced s 1 n).pc - 1 = s.pc := BitVec.add_sub_cancel ..

/-- Settles O36: the effect of the instruction gives the error, the cause of a failed store is the region of HL, and the bytes at
PC hold the opcode of the form; a failed fetch is an error of its own. -/
theorem stepRaisesOnlyTheFourReachableErrors : Obligations.StepRaisesOnlyTheFourReachableErrors := by
  intro s t x h faulted
  obtain ⟨i, wf, ⟨opcode, -⟩, effect⟩ | ⟨a, n, missing, unreadable, rfl⟩ := effect_of_step h
  case inr =>
    cases faulted
    exact .inl ⟨a, rfl, unreadable, missing.imp And.left (Or.imp And.left fun third => .inl third.1)⟩
  case inl =>
    have running := running_of_step h
    obtain ⟨rfl, unreadable⟩ | ⟨stores, v, write⟩ | ⟨op, form, rfl⟩ := effect.faulted running faulted
    · exact .inl ⟨s.hl, rfl, unreadable, .inr (.inr (.inr rfl))⟩
    · have storing := opcode_mem_storingOpcodes stores
      obtain ⟨rfl, inRom⟩ | ⟨rfl, window⟩ | ⟨rfl, unreadable⟩ := write_error_cases write
      · exact .inr (.inl ⟨rfl, inRom, _, storing, opcode⟩)
      · exact .inr (.inr (.inl ⟨rfl, window.1, window.2, _, storing, opcode⟩))
      · exact .inl ⟨s.hl, rfl, unreadable, .inr (.inr (.inr rfl))⟩
    · obtain rfl : i = .illegal op := by cases i <;> cases form; rfl
      refine .inr (.inr (.inr ⟨op, (wf_illegal_iff op).mp wf, ?_, opcode⟩))
      exact congrArg (Fault.illegalOpcode · op) (advanced_one_pc_sub_one s 1)

/-! ### The marker -/

/-- Settles O32: only a marking instruction touches the marker, and it is one byte long, so its address is PC. -/
theorem markerRecordsTheFirstUnsupportedOpcode : Obligations.MarkerRecordsTheFirstUnsupportedOpcode := by
  intro s t h
  obtain ⟨i, wf, ⟨opcode, -⟩, effect⟩ | ⟨a, n, -, -, rfl⟩ := effect_of_step h
  case inr => exact ⟨fun _ => id, .inl rfl⟩
  case inl =>
    obtain same | ⟨unmarked, policy, -, op, marked, gap⟩ := effect.unsupportedSeen
    · exact ⟨fun _ seen => same.trans seen, .inl same⟩
    · have unmarked : s.unsupportedSeen = none := unmarked
      refine ⟨fun x seen => absurd (unmarked.symm.trans seen) nofun, .inr ⟨op, unmarked, policy, ?_⟩⟩
      obtain form | ⟨form, rfl, policy76⟩ := gap
      · obtain rfl : i = .unsupported op := by cases i <;> cases form; rfl
        exact ⟨opcode, marked.trans (congrArg (fun pc => some (pc, op)) (advanced_one_pc_sub_one s 1)),
          .inl ((wf_unsupported_iff op).mp wf)⟩
      · obtain rfl : i = .ldAtHLAtHL := by cases i <;> cases form; rfl
        exact ⟨opcode, marked.trans (congrArg (fun pc => some (pc, 0x76)) (advanced_one_pc_sub_one s 1)),
          .inr ⟨rfl, policy76⟩⟩

/-! ### The clock -/

theorem length_encode (i : Instr) : (encode i).length = i.form.immediates.length + 1 := rfl

/-- Settles O33: one tick for each byte fetched, and what the instruction ticks beyond them. -/
theorem clockAdvancesByOneToFour : Obligations.ClockAdvancesByOneToFour := by
  intro s t h
  have bounds : s.mcycles + 1 ≤ t.mcycles ∧ t.mcycles ≤ s.mcycles + 4 := by
    obtain ⟨i, -, -, effect⟩ | ⟨a, n, missing, -, rfl⟩ := effect_of_step h
    · obtain ⟨least, most⟩ := effect.mcycles_bounds
      simp only [advanced, length_encode] at least most
      omega
    · obtain ⟨-, rfl⟩ | ⟨-, rfl⟩ | ⟨-, rfl⟩ := missing <;> simp
  refine ⟨bounds.1, bounds.2, ?_⟩
  unfold State.tcycles
  omega

theorem cycles_advanced (x : Form) (s : State) (n : Word) (k : Nat) : cycles x (advanced s n k) = cycles x s := by
  cases x with
  | jpCond cc | jrCond cc => cases cc <;> rfl
  | _ => rfl

/-- Settles O34: the step runs the instruction past its bytes, and the ticks of both are the table's. -/
theorem cycleTable : Obligations.CycleTable := by
  intro s t i wf ready h done
  rw [stepRunsTheDecodedInstruction s _ i ready (encodes_encode wf)] at h
  have ticks := (effect_of_exec h).mcycles_eq done
  rw [cycles_advanced] at ticks
  simp only [length_encode, advanced] at ticks
  omega

end Sys2Proof.Proofs
end

section
/-! PROOFS. The step and the engine written from bit fields are the same function: the ranges of 30_encoding.md R101 select the
rule of the form that the table gives, and that rule, which fetches its own immediates, does what the form means once they are
fetched. -/

namespace Sys2Proof.Machine
open Sys2Proof

/-- The rule that the engine follows for the opcode of a form, before its immediates are fetched. -/
def rawRule (x : Form) (s : State) : Res Unit :=
  match x with
  | .nop => .ok () s
  | .jp _ => rawJp x.opcode s
  | .jpCond _ _ => rawJp x.opcode s
  | .jr _ => rawJr x.opcode s
  | .jrCond _ _ => rawJr x.opcode s
  | .jpHL => jumpHL s
  | .ld .atHL .atHL =>
    match s.config.opc76Policy with
    | .documentLoad => rawLoad x.opcode s
    | .unsupported => unsupportedOpcode x.opcode s
  | .ld _ _ => rawLoad x.opcode s
  | .alu _ _ => rawAlu false x.opcode s
  | .aluImm _ _ => rawAlu true x.opcode s
  | .inc _ => rawIncDec x.opcode s
  | .dec _ => rawIncDec x.opcode s
  | .illegal op => raiseIllegal op s
  | .unsupported op => unsupportedOpcode op s

/-! ### The ranges select the rule of the form (R101) -/

theorem rawExecute_illegal {op : Byte} (illegal : op ∈ illegalOpcodes) (s : State) :
    rawExecute op s = raiseIllegal op s := by
  unfold illegalOpcodes at illegal
  fin_cases illegal <;> rfl

theorem rawExecute_unsupported {op : Byte} (unsupported : op ∈ unsupportedOpcodes) (s : State) :
    rawExecute op s = unsupportedOpcode op s := by
  simp only [unsupportedOpcodes, List.cons_append, List.nil_append] at unsupported
  fin_cases unsupported <;> rfl

/-- The one opcode whose rule looks at a parameter (41_load.md R143). -/
theorem rawExecute_0x76 (s : State) : rawExecute 0x76 s = rawRule (.ld .atHL .atHL) s := by
  unfold rawExecute rawRule
  cases s.config.opc76Policy <;> rfl

theorem rawExecute_aluImm (o : AluOp) (n : Byte) (s : State) :
    rawExecute (Form.aluImm o n).opcode s = rawRule (.aluImm o n) s := by
  show rawExecute (0b11#2 ++ o.code ++ 0b110#3) s = rawAlu true (0b11#2 ++ o.code ++ 0b110#3) s
  cases o <;> rfl

theorem rawExecute_opcode (i : Instr) (wf : i.wf = true) (s : State) : rawExecute i.form.opcode s = rawRule i.form s := by
  cases i with
  | illegal op => exact rawExecute_illegal ((Proofs.wf_illegal_iff op).mp wf) s
  | unsupported op => exact rawExecute_unsupported ((Proofs.wf_unsupported_iff op).mp wf) s
  | ldAtHLAtHL => exact rawExecute_0x76 s
  | addAImm n | adcAImm n | subAImm n | sbcAImm n | andAImm n | xorAImm n | orAImm n | cpAImm n =>
    exact rawExecute_aluImm _ n s
  | _ => rfl

/-! ### The operands of a raw opcode (R98) -/

theorem FieldOffset.code_low_append (group : BitVec 2) (high low : BitVec 3) :
    FieldOffset.low.code (group ++ high ++ low) = low := by
  revert group high low
  decide

theorem FieldOffset.code_high_append (group : BitVec 2) (high low : BitVec 3) :
    FieldOffset.high.code (group ++ high ++ low) = high := by
  revert group high low
  decide

/-- The resolver reads off a field the operand of the slot that the field names. -/
theorem resolve_slot {op : Byte} {off : FieldOffset} {slot : Slot} (code : off.code op = slot.code) (s : State) :
    resolve false op off s = .ok (s.operand slot) s := by
  cases slot with
  | reg r => exact Proofs.resolve_reg code.symm s
  | atHL => exact Proofs.resolve_ind code s

theorem rawLoad_append (dst src : Slot) (s : State) :
    rawLoad (0b01#2 ++ dst.code ++ src.code) s = loadOperand dst src s := by
  unfold rawLoad
  rw [resolve_slot (FieldOffset.code_low_append ..), Res.bind_ok, resolve_slot (FieldOffset.code_high_append ..), Res.bind_ok]
  rfl

/-- The middle field of an ALU opcode names the operation (R94). -/
theorem aluOpOfField_append (group : BitVec 2) (o : AluOp) (low : BitVec 3) :
    aluOpOfField ((group ++ o.code ++ low).extractLsb' 3 3) = o := by
  have field : (group ++ o.code ++ low).extractLsb' 3 3 = o.code := FieldOffset.code_high_append group o.code low
  rw [field]
  cases o <;> rfl

theorem rawAlu_append (o : AluOp) (src : Slot) (s : State) :
    rawAlu false (0b10#2 ++ o.code ++ src.code) s = aluOperand o (s.operand src) s := by
  unfold rawAlu
  rw [resolve_slot (FieldOffset.code_low_append ..), Res.bind_ok, aluOpOfField_append]
  rfl

/-- Bit 0 of the opcode tells DEC from INC. -/
theorem rawIncDec_inc (slot : Slot) (s : State) : rawIncDec (0b00#2 ++ slot.code ++ 0b100#3) s = incOperand slot s := by
  have even : ∀ code : BitVec 3, (0b00#2 ++ code ++ 0b100#3).getLsbD 0 = false := by decide
  unfold rawIncDec
  rw [resolve_slot (FieldOffset.code_high_append ..), Res.bind_ok, even]
  rfl

theorem rawIncDec_dec (slot : Slot) (s : State) : rawIncDec (0b00#2 ++ slot.code ++ 0b101#3) s = decOperand slot s := by
  have odd : ∀ code : BitVec 3, (0b00#2 ++ code ++ 0b101#3).getLsbD 0 = true := by decide
  unfold rawIncDec
  rw [resolve_slot (FieldOffset.code_high_append ..), Res.bind_ok, odd]
  rfl

/-! ### The rules with immediates, once these are fetched -/

theorem rawBranch_ok (taken : Bool) (target : Word) (s : State) :
    rawBranch (.ok taken) target s = if taken then takeBranch target s else .ok () s := by
  cases taken <;> rfl

section Fetched
variable {s s1 s2 : State} {n lo hi : Byte}

theorem rawAlu_immediate (o : AluOp) (fetched : fetchByte s = .ok n s1) :
    rawAlu true (0b11#2 ++ o.code ++ 0b110#3) s = aluOperand o (.imm n) s1 := by
  unfold rawAlu
  rw [Proofs.resolve_imm, fetched, Res.bind_ok, Res.bind_ok, aluOpOfField_append]
  rfl

theorem rawJp_unconditional (low : fetchByte s = .ok lo s1) (high : fetchByte s1 = .ok hi s2) :
    rawJp 0xC3 s = takeBranch (compose16 lo hi) s2 := by
  unfold rawJp
  rw [low, Res.bind_ok, high, Res.bind_ok, if_pos rfl, rawBranch_ok, if_pos rfl]

theorem rawJp_conditional (cc : Cond) (low : fetchByte s = .ok lo s1) (high : fetchByte s1 = .ok hi s2) :
    rawJp (0b110#3 ++ cc.code ++ 0b010#3) s = jumpAbsoluteIf cc (compose16 lo hi) s2 := by
  have conditional : 0b110#3 ++ cc.code ++ 0b010#3 ≠ (0xC3 : Byte) := by cases cc <;> decide
  have condition : evaluateCondition ((0b110#3 ++ cc.code ++ 0b010#3).extractLsb' 3 2).toNat s2 = .ok (s2.cond cc) := by
    cases cc <;> rfl
  unfold rawJp
  rw [low, Res.bind_ok, high, Res.bind_ok, if_neg conditional, condition, rawBranch_ok]
  rfl

theorem rawJr_unconditional (fetched : fetchByte s = .ok n s1) : rawJr 0x18 s = jumpRelative n s1 := by
  unfold rawJr
  rw [fetched, Res.bind_ok, if_pos rfl, rawBranch_ok, if_pos rfl]
  rfl

theorem rawJr_conditional (cc : Cond) (fetched : fetchByte s = .ok n s1) :
    rawJr (0b001#3 ++ cc.code ++ 0b000#3) s = jumpRelativeIf cc n s1 := by
  have conditional : 0b001#3 ++ cc.code ++ 0b000#3 ≠ (0x18 : Byte) := by cases cc <;> decide
  have condition : evaluateCondition ((0b001#3 ++ cc.code ++ 0b000#3).extractLsb' 3 2).toNat s1 = .ok (s1.cond cc) := by
    cases cc <;> rfl
  unfold rawJr
  rw [fetched, Res.bind_ok, if_neg conditional, condition, rawBranch_ok]
  rfl

/-! ### A rule after its fetches, and one whose fetch raises -/

theorem rawRule_of_no_immediate {x : Form} (none : x.immediates = []) (s : State) : rawRule x s = formMeaning x s := by
  cases x with
  | nop | jpHL | illegal | unsupported => rfl
  | ld dst src =>
    cases dst with
    | reg r => exact rawLoad_append (.reg r) src s
    | atHL => cases src with
      | reg q => exact rawLoad_append .atHL (.reg q) s
      | atHL =>
        cases policy : s.config.opc76Policy <;> simp only [rawRule, formMeaning, loadOrUnsupported, policy]
        · exact rawLoad_append .atHL .atHL s
        · rfl
  | alu o src => exact rawAlu_append o src s
  | inc slot => exact rawIncDec_inc slot s
  | dec slot => exact rawIncDec_dec slot s
  | jp | jpCond | jr | jrCond | aluImm => cases none

theorem rawRule_of_fetched {x : Form} (one : x.immediates = [n]) (fetched : fetchByte s = .ok n s1) :
    rawRule x s = formMeaning x s1 := by
  cases x with
  | jr disp =>
    cases one
    exact rawJr_unconditional fetched
  | jrCond cc disp =>
    cases one
    exact rawJr_conditional cc fetched
  | aluImm o m =>
    cases one
    exact rawAlu_immediate o fetched
  | _ => cases one

theorem rawRule_of_both_fetched {x : Form} (both : x.immediates = [lo, hi]) (low : fetchByte s = .ok lo s1)
    (high : fetchByte s1 = .ok hi s2) : rawRule x s = formMeaning x s2 := by
  cases x with
  | jp target =>
    cases both
    exact (rawJp_unconditional low high).trans (congrArg (takeBranch · s2) (Laws.compose16_bytes target))
  | jpCond cc target =>
    cases both
    exact (rawJp_conditional cc low high).trans (congrArg (jumpAbsoluteIf cc · s2) (Laws.compose16_bytes target))
  | _ => cases both

theorem rawRule_raised {x : Form} (some : x.immediates ≠ []) (raised : fetchByte s = .raised s1) :
    rawRule x s = .raised s1 := by
  cases x with
  | jp | jpCond => simp only [rawRule, rawJp, raised, Res.bind_raised]
  | jr | jrCond => simp only [rawRule, rawJr, raised, Res.bind_raised]
  | aluImm => simp only [rawRule, rawAlu, Proofs.resolve_imm, raised, Res.bind_raised]
  | _ => exact absurd rfl some

theorem rawRule_high_raised {x : Form} {b b' : Byte} (both : x.immediates = [b, b']) (low : fetchByte s = .ok lo s1)
    (raised : fetchByte s1 = .raised s2) : rawRule x s = .raised s2 := by
  cases x with
  | jp | jpCond => simp only [rawRule, rawJp, low, raised, Res.bind_ok, Res.bind_raised]
  | _ => cases both

end Fetched

end Sys2Proof.Machine

namespace Sys2Proof.Proofs
open Sys2Proof Sys2Proof.Machine

theorem rawExecute_of_encode {i : Instr} {op : Byte} {immediates : List Byte} (encoded : encode i = op :: immediates)
    (wf : i.wf = true) (s : State) : rawExecute op s = rawRule i.form s ∧ i.form.immediates = immediates := by
  cases encoded
  exact ⟨rawExecute_opcode i wf s, rfl⟩

/-- The engine after the opcode fetch, against the rest of the fetches and the meaning, by the row of the opcode. -/
theorem step_eq_rawExecute {s s1 : State} {op : Byte} (running : s.status = .running) (opcode : fetchByte s = .ok op s1) :
    step s = (rawExecute op s1).outcome := by
  have encodes := rowOf_encodesTo op
  cases row : rowOf op with
  | plain i =>
    obtain ⟨encoded, wf⟩ : encode i = [op] ∧ i.wf = true := by simpa only [row] using encodes 0 0
    obtain ⟨rule, none⟩ := rawExecute_of_encode encoded wf s1
    have fetched : fetchInstr s = .ok i s1 := by simp only [fetchInstr, opcode, row, Res.bind_ok]
    rw [step_of_fetched running fetched, exec_eq_form, rule, rawRule_of_no_immediate none]
  | imm8 f =>
    have encodes (n : Byte) : encode (f n) = [op, n] ∧ (f n).wf = true := by simpa only [row] using encodes n 0
    cases immediate : fetchByte s1 with
    | ok n s2 =>
      obtain ⟨rule, one⟩ := rawExecute_of_encode (encodes n).1 (encodes n).2 s1
      have fetched : fetchInstr s = .ok (f n) s2 := by simp only [fetchInstr, opcode, row, immediate, Res.bind_ok]
      rw [step_of_fetched running fetched, exec_eq_form, rule, rawRule_of_fetched one immediate]
    | raised s2 =>
      obtain ⟨rule, one⟩ := rawExecute_of_encode (encodes 0).1 (encodes 0).2 s1
      have raised : fetchInstr s = .raised s2 := by
        simp only [fetchInstr, opcode, row, immediate, Res.bind_ok, Res.bind_raised]
      rw [step_of_raised running raised, rule, rawRule_raised (one ▸ List.cons_ne_nil _ _) immediate, Res.outcome_raised]
  | imm16 f =>
    have encodes (w : Word) : encode (f w) = [op, (decompose16 w).1, (decompose16 w).2] ∧ (f w).wf = true := by
      simpa only [row] using encodes 0 w
    cases low : fetchByte s1 with
    | ok lo s2 =>
      cases high : fetchByte s2 with
      | ok hi s3 =>
        obtain ⟨encoded, wf⟩ := encodes (compose16 lo hi)
        rw [decompose16_compose16] at encoded
        obtain ⟨rule, both⟩ := rawExecute_of_encode encoded wf s1
        have fetched : fetchInstr s = .ok (f (compose16 lo hi)) s3 := by
          simp only [fetchInstr, opcode, row, low, high, Res.bind_ok]
        rw [step_of_fetched running fetched, exec_eq_form, rule, rawRule_of_both_fetched both low high]
      | raised s3 =>
        obtain ⟨rule, both⟩ := rawExecute_of_encode (encodes 0).1 (encodes 0).2 s1
        have raised : fetchInstr s = .raised s3 := by
          simp only [fetchInstr, opcode, row, low, high, Res.bind_ok, Res.bind_raised]
        rw [step_of_raised running raised, rule, rawRule_high_raised both low high, Res.outcome_raised]
    | raised s2 =>
      obtain ⟨rule, both⟩ := rawExecute_of_encode (encodes 0).1 (encodes 0).2 s1
      have raised : fetchInstr s = .raised s2 := by
        simp only [fetchInstr, opcode, row, low, Res.bind_ok, Res.bind_raised]
      rw [step_of_raised running raised, rule, rawRule_raised (both ▸ List.cons_ne_nil _ _) low, Res.outcome_raised]

/-- Settles O27: both fetch the opcode first; then the table's row and the engine's ranges name the same rule. -/
theorem stepAgreesWithTheFieldEngine : Obligations.StepAgreesWithTheFieldEngine := by
  intro s running
  cases opcode : fetchByte s with
  | ok op s1 =>
    rw [rawStep, opcode, Res.bind_ok]
    exact step_eq_rawExecute running opcode
  | raised s1 =>
    have raised : fetchInstr s = .raised s1 := by rw [fetchInstr, opcode, Res.bind_raised]
    rw [rawStep, opcode, Res.bind_raised, step_of_raised running raised, Res.outcome_raised]

end Sys2Proof.Proofs
end

section
/-! PROOFS. The fetches of 30_encoding.md R95 that fail, and NOP and the jumps of 40_control.md R120 to R124 with each of theirs;
the word loaded at the entry point, and the NOP of the prohibited region. -/

namespace Sys2Proof.Proofs
open Sys2Proof Sys2Proof.Machine Sys2Proof.Claims Sys2Proof.Laws

/-! ### A missing byte (D6, D12) -/

theorem step_opcode_fault {s : State} {x : Fault} (running : s.status = .running) (unreadable : s.mem.read s.pc = .error x) :
    step s = .next { advanced s 0 1 with status := .faulted x } := by
  have raised : fetchInstr s = .raised (s.tick.raise x) := by
    rw [fetchInstr, fetchByte_error unreadable, Res.bind_raised]
  rw [step_of_raised running raised, advanced_zero_one, State.raise]

theorem secondByteFault_of_row {op : Byte} (more : 0 < Row.immediateCount (rowOf op)) : SecondByteFault op := by
  rintro s x ⟨running, opcode, -⟩ unreadable
  have second := fetchByte_error (s := { s with pc := s.pc + 1, mcycles := s.mcycles + 1 }) unreadable
  refine step_of_raised running ?_
  cases row : rowOf op with
  | plain i =>
    rw [row] at more
    cases more
  | imm8 f | imm16 f =>
    simp only [fetchInstr, fetchByte_ok opcode, Res.bind_ok, row, second, Res.bind_raised]
    rfl

theorem thirdByteFault_of_row {op : Byte} (two : Row.immediateCount (rowOf op) = 2) : ThirdByteFault op := by
  rintro s lo x ⟨running, opcode, low, -⟩ unreadable
  have pastBoth : s.pc + 1 + 1 = s.pc + 2 := BitVec.add_assoc ..
  have second := fetchByte_ok (s := { s with pc := s.pc + 1, mcycles := s.mcycles + 1 }) low
  have third := fetchByte_error (s := { s with pc := s.pc + 2, mcycles := s.mcycles + 1 + 1 }) unreadable
  refine step_of_raised running ?_
  cases row : rowOf op with
  | plain i | imm8 f =>
    rw [row] at two
    cases two
  | imm16 f =>
    simp only [fetchInstr, fetchByte_ok opcode, Res.bind_ok, row, second, pastBoth, third, Res.bind_raised]
    rfl

/-- Settles O25: which opcodes have a second and a third byte is read off the table. -/
theorem fetchFaultsKeepPcOnTheMissingByte : Obligations.FetchFaultsKeepPcOnTheMissingByte := by
  refine ⟨fun s x running unreadable => ⟨MemoryMap.read_error unreadable, step_opcode_fault running unreadable⟩,
    fun op jump => secondByteFault_of_row ?_, fun op alu => secondByteFault_of_row ?_, fun op jump => thirdByteFault_of_row ?_⟩
  · revert op
    decide
  · revert op
    decide
  · revert op
    decide

/-! ### NOP (R120) -/

theorem rowOf_nop : rowOf 0x00 = .plain .nop := rfl

/-- Settles O38: NOP does nothing after its fetch. -/
theorem nopOnlyFetches : Obligations.NopOnlyFetches :=
  ⟨decode_plain rowOf_nop [], fun _ => rfl, fun _ ready => step_plain ready rowOf_nop, fun _ _ => step_opcode_fault⟩

/-- Settles O13: no cell backs the region, so a read gives 0x00, which is the opcode of NOP. -/
theorem prohibitedRegionReadsZeroRunsNop : Obligations.ProhibitedRegionReadsZeroRunsNop := by
  intro s w v window
  have zero : s.mem.read w = .ok 0x00 := read_prohibited s.mem (regionOf_eq_prohibited window)
  refine ⟨memRead_ok zero, memWrite_error (write_prohibited s.mem v window),
    s.mem.cellOf_prohibited (regionOf_eq_prohibited window), ?_⟩
  rintro running rfl
  exact step_plain ⟨running, zero, trivial⟩ rowOf_nop

/-! ### The jumps (R121 to R124) -/

theorem rowOf_jp : rowOf 0xC3 = .imm16 .jp := rfl

theorem rowOf_jr : rowOf 0x18 = .imm8 .jr := rfl

theorem exec_jp (target : Word) (s : State) :
    exec (.jp target) s = .next { s with pc := target, mcycles := s.mcycles + 1 } := rfl

theorem exec_jr (disp : Byte) (s : State) :
    exec (.jr disp) s = .next { s with pc := s.pc + disp.signExtend 16, mcycles := s.mcycles + 1 } := rfl

/-- Settles O39: the target is the two bytes fetched. -/
theorem jumpAbsolute : Obligations.JumpAbsolute :=
  ⟨fun lo hi => decode_imm16 rowOf_jp lo hi [], exec_jp, fun _ _ _ ready => (step_imm16 ready rowOf_jp).trans (exec_jp _ _),
    secondByteFault_of_row (by decide), thirdByteFault_of_row (by decide)⟩

/-- Settles O41: the displacement counts from past itself. -/
theorem jumpRelative : Obligations.JumpRelative :=
  ⟨fun disp => decode_imm8 rowOf_jr disp [], exec_jr, fun _ _ ready => (step_imm8 ready rowOf_jr).trans (exec_jr _ _),
    secondByteFault_of_row (by decide)⟩

section Conditional
variable {i : Instr} {cc : Cond} {target : Word} {disp : Byte} {s : State}

theorem exec_jpCond_taken (form : i.form = .jpCond cc target) (holds : s.cond cc = true) :
    exec i s = .next { s with pc := target, mcycles := s.mcycles + 1 } := by
  rw [exec_eq_form, form, formMeaning, jumpAbsoluteIf, if_pos holds]
  rfl

theorem exec_jpCond_not_taken (form : i.form = .jpCond cc target) (fails : s.cond cc = false) : exec i s = .next s := by
  rw [exec_eq_form, form, formMeaning, jumpAbsoluteIf, fails, if_neg Bool.false_ne_true, Res.outcome_ok]

theorem exec_jrCond_taken (form : i.form = .jrCond cc disp) (holds : s.cond cc = true) :
    exec i s = .next { s with pc := s.pc + disp.signExtend 16, mcycles := s.mcycles + 1 } := by
  rw [exec_eq_form, form, formMeaning, jumpRelativeIf, if_pos holds]
  rfl

theorem exec_jrCond_not_taken (form : i.form = .jrCond cc disp) (fails : s.cond cc = false) : exec i s = .next s := by
  rw [exec_eq_form, form, formMeaning, jumpRelativeIf, fails, if_neg Bool.false_ne_true, Res.outcome_ok]

end Conditional

/-- The fetches do not touch F. -/
theorem cond_advanced (s : State) (n : Word) (t : Nat) (cc : Cond) : (advanced s n t).cond cc = s.cond cc := by
  cases cc <;> rfl

theorem jpCondRows_table : ∀ row ∈ jpCondRows,
    rowOf row.1 = .imm16 row.2.1 ∧ ∀ target, (row.2.1 target).form = .jpCond row.2.2 target := by
  simp only [jpCondRows, List.forall_mem_cons]
  exact ⟨⟨rfl, fun _ => rfl⟩, ⟨rfl, fun _ => rfl⟩, ⟨rfl, fun _ => rfl⟩, ⟨rfl, fun _ => rfl⟩, nofun⟩

theorem jrCondRows_table : ∀ row ∈ jrCondRows,
    rowOf row.1 = .imm8 row.2.1 ∧ ∀ disp, (row.2.1 disp).form = .jrCond row.2.2 disp := by
  simp only [jrCondRows, List.forall_mem_cons]
  exact ⟨⟨rfl, fun _ => rfl⟩, ⟨rfl, fun _ => rfl⟩, ⟨rfl, fun _ => rfl⟩, ⟨rfl, fun _ => rfl⟩, nofun⟩

/-- Settles O40: a conditional jump by its form; the fetch of the step leaves F as it is. -/
theorem jumpAbsoluteConditional : Obligations.JumpAbsoluteConditional := by
  intro op mk cc inRows
  obtain ⟨row, form⟩ := jpCondRows_table _ inRows
  have two : Row.immediateCount (rowOf op) = 2 := by rw [row]; rfl
  refine ⟨fun lo hi => decode_imm16 row lo hi [], fun s => by cases cc <;> rfl,
    fun target s => exec_jpCond_taken (form target), fun target s => exec_jpCond_not_taken (form target),
    fun s lo hi ready holds => ?_, fun s lo hi ready fails => ?_,
    secondByteFault_of_row (by omega), thirdByteFault_of_row two⟩
  · exact (step_imm16 ready row).trans (exec_jpCond_taken (form _) ((cond_advanced ..).trans holds))
  · exact (step_imm16 ready row).trans (exec_jpCond_not_taken (form _) ((cond_advanced ..).trans fails))

/-- Settles O42: a conditional jump by its form; the fetch of the step leaves F as it is. -/
theorem jumpRelativeConditional : Obligations.JumpRelativeConditional := by
  intro op mk cc inRows
  obtain ⟨row, form⟩ := jrCondRows_table _ inRows
  have one : Row.immediateCount (rowOf op) = 1 := by rw [row]; rfl
  refine ⟨fun disp => decode_imm8 row disp [], fun disp s => exec_jrCond_taken (form disp),
    fun disp s => exec_jrCond_not_taken (form disp), fun s disp ready holds => ?_, fun s disp ready fails => ?_,
    secondByteFault_of_row (by omega)⟩
  · exact (step_imm8 ready row).trans (exec_jrCond_taken (form _) ((cond_advanced ..).trans holds))
  · exact (step_imm8 ready row).trans (exec_jrCond_not_taken (form _) ((cond_advanced ..).trans fails))

/-! ### The word loaded at the entry point -/

theorem bytesAt_of_append {s : State} {xs ys : List Byte} : ∀ {a : Word}, BytesAt s a (xs ++ ys) → BytesAt s a xs := by
  induction xs with
  | nil => exact fun _ => trivial
  | cons x xs ih => exact fun ⟨read, rest⟩ => ⟨read, ih rest⟩

/-- The ROM of reset with three bytes loaded at the entry point. -/
def loadedRom (b0 b1 b2 : Byte) : Memory := ((Memory.set [] 0x0100 b0).set 0x0101 b1).set 0x0102 b2

theorem loadAtPc_reset_bytes (b0 b1 b2 : Byte) :
    BytesAt (loadAtPc State.reset b0 b1 b2) (loadAtPc State.reset b0 b1 b2).pc [b0, b1, b2] := by
  have wf0 : (Memory.set [] 0x0100 b0).wf = true := Memory.set_wf (m := []) rfl _ _
  have wf1 : ((Memory.set [] 0x0100 b0).set 0x0101 b1).wf = true := Memory.set_wf wf0 _ _
  have first : (loadedRom b0 b1 b2).get 0x0100 = b0 := by
    rw [loadedRom, Memory.get_set_other _ (by decide), Memory.get_set_other _ (by decide), Memory.get_set_same (m := []) rfl]
  have second : (loadedRom b0 b1 b2).get 0x0101 = b1 := by
    rw [loadedRom, Memory.get_set_other _ (by decide), Memory.get_set_same wf0]
  have third : (loadedRom b0 b1 b2).get 0x0102 = b2 := Memory.get_set_same wf1 _ _
  exact ⟨congrArg Except.ok first, congrArg Except.ok second, congrArg Except.ok third, trivial⟩

/-- Settles O26: three bytes hold an instruction, its bytes are the first of the three, and a step runs them. -/
theorem loadedWordRunsFirstAfterReset : Obligations.LoadedWordRunsFirstAfterReset := by
  intro nbits w
  obtain ⟨i, rest, decoded⟩ := exists_decode_eq_ok (BitVec.ofNat 8 (w % 2 ^ nbits)) (BitVec.ofNat 8 (w % 2 ^ nbits / 256))
    (BitVec.ofNat 8 (w % 2 ^ nbits / 65536)) []
  obtain ⟨encoded, wf⟩ := encode_append_of_decode decoded
  refine ⟨i, by rw [decodeTableWord, decoded], stepRunsTheDecodedInstruction _ _ i ⟨rfl, ?_⟩ (encodes_encode wf)⟩
  refine bytesAt_of_append (ys := rest) ?_
  rw [encoded]
  exact loadAtPc_reset_bytes _ _ _

end Sys2Proof.Proofs
end

section
/-! PROOFS. The memory map beyond one access: read after write (20_memory.md section 6), the mirrors and what is readable
(section 3), and the contents at construction. -/

namespace Sys2Proof.Proofs
open Sys2Proof Sys2Proof.Machine Sys2Proof.Claims Sys2Proof.Laws

/-- Settles O11: a write changes the one cell that its address reaches. -/
theorem readAfterWrite : Obligations.ReadAfterWrite := fun _ _ _ _ wf write =>
  ⟨MemoryMap.write_wf wf write, fun _ => MemoryMap.read_write_same wf write, fun _ => MemoryMap.read_write_other write⟩

/-! ### The mirrors (R58, D25) -/

theorem toNat_ofNat_word {a : Nat} (fits : a ≤ 0xFFFF) : (BitVec.ofNat 16 a).toNat = a :=
  BitVec.toNat_ofNat a 16 ▸ Nat.mod_eq_of_lt (Nat.lt_succ_of_le fits)

/-- Two addresses above ROM that reach one cell which exists are the same to every access. -/
theorem accesses_eq_of_cell {m : MemoryMap} {a b : Nat} {st : Store} {i : Nat} (boundA : 0x8000 ≤ a ∧ a ≤ 0xFFFF)
    (boundB : 0x8000 ≤ b ∧ b ≤ 0xFFFF) (cellA : m.cellOf a = some (st, i)) (cellB : m.cellOf b = some (st, i))
    (present : i < m.size st) :
    m.cellOf a = m.cellOf b ∧
      (∀ v, m.write (BitVec.ofNat 16 a) v = m.write (BitVec.ofNat 16 b) v) ∧
      m.read (BitVec.ofNat 16 a) = m.read (BitVec.ofNat 16 b) := by
  have toNatA := toNat_ofNat_word boundA.2
  have toNatB := toNat_ofNat_word boundB.2
  have cellA' : m.cellOf (BitVec.ofNat 16 a).toNat = some (st, i) := by rwa [toNatA]
  have cellB' : m.cellOf (BitVec.ofNat 16 b).toNat = some (st, i) := by rwa [toNatB]
  refine ⟨cellA.trans cellB.symm, fun v => ?_, ?_⟩
  · rw [write_cell cellA' (by omega) present, write_cell cellB' (by omega) present]
  · rw [read_cell cellA' present, read_cell cellB' present]

/-- Settles O12: a mirror reaches the cell of its original, which exists. -/
theorem mirrorWindowsReadTheSameCells : Obligations.MirrorWindowsReadTheSameCells := by
  intro m k
  refine ⟨fun offset => ?bank0, fun offset bank => ?switchable⟩
  case bank0 =>
    refine accesses_eq_of_cell (st := .wram) (i := k) (by omega) (by omega) ?_ ?_ ?_
    · rw [MemoryMap.cellOf, regionOf_eq (r := .mirrorBank0) (Nat.le_add_right 0xE000 k) (Nat.add_le_add_left offset _)]
      simp only [Nat.add_sub_cancel_left]
    · rw [MemoryMap.cellOf, regionOf_eq (r := .wramBank0) (Nat.le_add_right 0xC000 k) (Nat.add_le_add_left offset _)]
      simp only [Nat.add_sub_cancel_left]
    · simp only [MemoryMap.size]
      omega
  case switchable =>
    refine accesses_eq_of_cell (st := .wram) (i := m.wramBank * 4096 + k) (by omega) (by omega) ?_ ?_ ?_
    · rw [MemoryMap.cellOf, regionOf_eq (r := .mirrorSwitchable) (Nat.le_add_right 0xF000 k) (Nat.add_le_add_left offset _)]
      simp only [Nat.add_sub_cancel_left]
    · have inBank : 0xD000 + k ≤ 0xDFFF := by omega
      rw [MemoryMap.cellOf, regionOf_eq (r := .wramSwitchable) (Nat.le_add_right 0xD000 k) inBank]
      simp only [Nat.add_sub_cancel_left]
    · simp only [MemoryMap.size]
      omega

/-! ### What is readable (D7, D8) -/

theorem read_error_of_not_ok {m : MemoryMap} {a : Word} (unreadable : ¬ ∃ v, m.read a = .ok v) :
    m.read a = .error (.outOfBounds a) := by
  cases read : m.read a with
  | ok v => exact absurd ⟨v, read⟩ unreadable
  | error x => rw [MemoryMap.read_error read]

/-- Settles O14: with the bank indices of construction, a cell is missing in ROM and in external RAM only. -/
theorem readableAddresses : Obligations.ReadableAddresses := by
  intro m w fixed
  have readable := exists_read_eq_ok_iff fixed w
  refine ⟨readable, read_error_of_not_ok, fun window absent => ⟨read_error_of_not_ok ?_, fun v => ?_⟩⟩
  · rw [readable]
    omega
  · simp only [MemoryMap.banksFixed, Bool.and_eq_true, beq_iff_eq] at fixed
    exact write_absent_eram v window (by omega)

/-! ### Construction (10_state.md section 8; 20_memory.md R56, R57, R64) -/

/-- Settles O15: each field of the constructed state is the input it is built from. -/
theorem constructionValues : Obligations.ConstructionValues :=
  ⟨fun _ => ⟨rfl, rfl, rfl, rfl, rfl, rfl, rfl, rfl, rfl, rfl, rfl, rfl, rfl, rfl, rfl, rfl, rfl, rfl, rfl, rfl⟩, rfl⟩

theorem banksFixed_construct (k : Construction) : (MemoryMap.construct k).banksFixed = true := rfl

/-- At construction the two ROM windows read the image from its start on. -/
theorem cellOf_construct_rom (k : Construction) {a : Nat} (inRom : a ≤ 0x7FFF) :
    (MemoryMap.construct k).cellOf a = some (.rom, a) := by
  obtain bank0 | switchable := Nat.lt_or_ge a 0x4000
  · rw [MemoryMap.cellOf, regionOf_eq (r := .romBank0) (Nat.zero_le a) (Nat.le_of_lt_succ bank0)]
  · have index : 1 * 16384 + (a - 0x4000) = a := by omega
    rw [MemoryMap.cellOf, regionOf_eq (r := .romSwitchable) switchable inRom]
    exact congrArg (fun i => some (Store.rom, i)) index

theorem cellOf_construct_eram (k : Construction) {a : Nat} (window : 0xA000 ≤ a ∧ a ≤ 0xBFFF) :
    (MemoryMap.construct k).cellOf a = some (.eram, 8192 + (a - 0xA000)) := by
  have index : 1 * 8192 + (a - 0xA000) = 8192 + (a - 0xA000) := by rw [Nat.one_mul]
  rw [MemoryMap.cellOf, regionOf_eq (r := .eram) window.1 window.2]
  exact congrArg (fun i => some (Store.eram, i)) index

/-- The windows of the stores that 20_memory.md R64 fills with zeros, and the prohibited one, are all the addresses between
those of ROM, external RAM and IE. -/
theorem store_filled_of_window {m : MemoryMap} {a : Word} {st : Store} {i : Nat} (cell : m.cellOf a.toNat = some (st, i))
    (window : (0x8000 ≤ a.toNat ∧ a.toNat ≤ 0x9FFF) ∨ (0xC000 ≤ a.toNat ∧ a.toNat ≤ 0xFFFE)) :
    st ∈ [Store.vram, .wram, .oam, .io, .hram] := by
  have region := regionOf_window (Nat.le_of_lt_succ a.isLt)
  cases is : regionOf a.toNat <;> rw [is] at region <;> rw [MemoryMap.cellOf, is] at cell <;> cases cell
  case romBank0 | romSwitchable | eram | interruptEnable =>
    simp only [Region.window] at region
    omega
  all_goals decide

theorem store_construct_filled (k : Construction) {st : Store} (filled : st ∈ [Store.vram, .wram, .oam, .io, .hram]) :
    (MemoryMap.construct k).store st = [] := by
  fin_cases filled <;> rfl

theorem read_construct_filled (k : Construction) {a : Word}
    (window : (0x8000 ≤ a.toNat ∧ a.toNat ≤ 0x9FFF) ∨ (0xC000 ≤ a.toNat ∧ a.toNat ≤ 0xFFFE)) :
    (MemoryMap.construct k).read a = .ok 0x00 := by
  obtain ⟨-, read⟩ | ⟨st, i, -, cell, -, read⟩ | ⟨st, i, -, cell, absent, -⟩ := (MemoryMap.construct k).read_cases a
  · exact read
  · rw [read, store_construct_filled k (store_filled_of_window cell window)]
    rfl
  · exact absurd ((cell_present_iff (banksFixed_construct k) cell).mpr ⟨by omega, by omega⟩) absent

/-- Settles O16: each window by the cells it reaches, and each store by what it was made of. -/
theorem constructionMemoryContents : Obligations.ConstructionMemoryContents := by
  intro k w
  refine ⟨fun inRom within => ?image, fun inRom past => ?pastImage, fun window banks => ?eram, fun window absent => ?noEram,
    read_construct_filled k, ?ie⟩
  case image =>
    refine (read_cell (cellOf_construct_rom k inRom) within).trans (congrArg Except.ok ?_)
    exact (Memory.get_ofBytes k.romImage w.toNat).trans (List.getD_eq_getElem _ _ within)
  case pastImage => exact read_absent_cell (cellOf_construct_rom k inRom) (Nat.not_lt_of_le past)
  case eram =>
    have present : 8192 + (w.toNat - 0xA000) < k.mEram * 8192 := by omega
    refine (read_cell (cellOf_construct_eram k window) present).trans (congrArg Except.ok ?_)
    refine (Memory.get_ofBytes (k.eramInit.take (k.mEram * 8192)) _).trans ?_
    rw [List.getD_eq_getElem?_getD, List.getElem?_take_of_lt present, ← List.getD_eq_getElem?_getD]
    rfl
  case noEram =>
    have absent : ¬ 8192 + (w.toNat - 0xA000) < k.mEram * 8192 := by omega
    exact read_absent_cell (cellOf_construct_eram k window) absent
  case ie =>
    rintro rfl
    exact congrArg Except.ok (Memory.get_ofBytes [k.ieInit] 0)

/-- Settles O17: the lookup by its rows, and the byte of an image that has it. -/
theorem headerSuppliesExternalRamBanks : Obligations.HeaderSuppliesExternalRamBanks := by
  refine ⟨rfl, rfl, rfl, rfl, rfl, fun b ⟨not0, not1, not3, not4, not5⟩ => ?_, fun k has => ?_⟩
  · rw [eramBanksOfHeader, if_neg not0, if_neg not1, if_neg not3, if_neg not4, if_neg not5]
  · rw [withHeaderBanks, List.getD_eq_getElem _ _ has]

/-- Settles O29: a preset is valid when its F is, and construction fixes the banks and makes canonical stores. -/
theorem constructionMeetsTheInvariant : Obligations.ConstructionMeetsTheInvariant := fun k valid =>
  ⟨beq_iff_eq.mp valid, banksFixed_construct k, MemoryMap.construct_wf k⟩

/-- Settles O28: reset is a construction from a valid preset. -/
theorem resetMeetsTheInvariant : Obligations.ResetMeetsTheInvariant :=
  constructionMeetsTheInvariant Construction.unloaded (by decide)

end Sys2Proof.Proofs
end

section
/-! PROOFS. The arithmetic of 42_alu.md with a carry in, under each CARRY_IN_MODE (R160, R161; D3), ADC and SBC with it, and the
[HL] forms of the ALU group when HL cannot be read. -/

namespace Sys2Proof.Proofs
open Sys2Proof Sys2Proof.Machine Sys2Proof.Claims Sys2Proof.Laws

/-! ### add8 and sub8 with a carry in -/

/-- The modes differ in the flags alone: the result is the sum modulo 256 in each. -/
theorem add8_r (mode : CarryInMode) (a v : Byte) (cin : Bool) :
    (add8 mode a v cin).r = a + v + BitVec.ofNat 8 cin.toNat := by
  apply BitVec.eq_of_toNat_eq
  cases mode <;> simp only [add8, BitVec.toNat_add, BitVec.toNat_ofNat] <;> omega

theorem sub8_r (mode : CarryInMode) (a v : Byte) (cin : Bool) :
    (sub8 mode a v cin).r = a - v - BitVec.ofNat 8 cin.toNat := by
  have aInByte := a.isLt
  have vInByte := v.isLt
  have carry := cin.toNat_le
  apply BitVec.eq_of_toNat_eq
  cases mode <;> simp only [sub8, BitVec.toNat_sub, BitVec.toNat_ofNat, BitVec.toNat_ofInt] <;> omega

/-- Settles O5: the modes differ in the operand plus the carry, which leaves its low nibble when that was full, and its byte
when it was 0xFF. -/
theorem addSubModesAgreeWithoutCarry : Obligations.AddSubModesAgreeWithoutCarry := by
  refine ⟨fun m m' a v => ?agree, fun a v => ?result, fun a v notFull => ?notFull, fun a v full => ?full,
    fun a v notTop => ?notTop, fun a => ?top⟩
  case agree =>
    exact ⟨(add8_false m a v).trans (add8_false m' a v).symm, (sub8_false m a v).trans (sub8_false m' a v).symm⟩
  case result =>
    refine ⟨by rw [add8_r, add8_r], ?_, by rw [sub8_r, sub8_r], rfl⟩
    simp only [add8, Nat.add_assoc]
  case notFull =>
    have stays : (v.toNat + 1) % 16 = v.toNat % 16 + 1 := by omega
    simp only [add8, sub8, Bool.toNat_true, stays, Nat.add_assoc, Int.natCast_add, Int.sub_sub, and_self]
  case full =>
    have clears : (v.toNat + 1) % 16 = 0 := by omega
    simp only [add8, sub8, Bool.toNat_true, clears, full, decide_eq_true_eq, decide_eq_false_iff_not]
    omega
  case notTop =>
    have below : v.toNat ≠ 255 := fun top => notTop (BitVec.eq_of_toNat_eq top)
    have stays : (v.toNat + 1) % 256 = v.toNat + 1 := by omega
    simp only [add8, sub8, Bool.toNat_true, stays, and_self]
  case top =>
    have inByte := a.isLt
    have wraps : (0xFF : Byte).toNat + true.toNat = 256 := rfl
    have sum : a + 0xFF + 1 = a := by bv_omega
    have difference : a - 0xFF - 1 = a := by bv_omega
    refine ⟨(add8_r ..).trans sum, ?_, (sub8_r ..).trans difference, ?_⟩
    all_goals
      simp only [add8, sub8, wraps, decide_eq_true_eq, decide_eq_false_iff_not]
      omega

/-- Settles O6: `inc8` and `dec8` are the formulas for operand 1 without a carry in. -/
theorem incDecHelpersMatchOneOperandAddSub : Obligations.IncDecHelpersMatchOneOperandAddSub := by
  intro v
  refine ⟨inc8_eq v, dec8_eq v, fun m => ?_⟩
  rw [add8_false, sub8_false, dec8_eq]
  exact ⟨rfl, rfl, rfl, decide_eq_decide.mpr Nat.lt_one_iff.symm⟩

/-! ### ADC and SBC (R166 to R168, R172 to R174) -/

theorem aluNext_adc (s : State) (v : Byte) : aluNext .adc s v = adcResult s v := by
  have nibble (n : Nat) : n % 256 % 16 = n % 16 := Nat.mod_mod_of_dvd n (by decide)
  have carry : (s.flag .c).toNat = carryOf s := rfl
  simp only [aluNext, aluCompute, Arith.added, add8_r, adcResult, State.aluWrite, State.setFlags, carry, reduceCtorEq,
    if_false]
  cases s.config.carryInMode <;> simp only [add8, carry, nibble, Nat.add_assoc]

theorem aluNext_sbc (s : State) (v : Byte) : aluNext .sbc s v = sbcResult s v := by
  have nibble (n : Nat) : n % 256 % 16 = n % 16 := Nat.mod_mod_of_dvd n (by decide)
  have carry : (s.flag .c).toNat = carryOf s := rfl
  simp only [aluNext, aluCompute, Arith.subtracted, sub8_r, sbcResult, State.aluWrite, State.setFlags, carry,
    reduceCtorEq, if_false]
  cases s.config.carryInMode <;> simp only [sub8, carry, nibble]

/-- Settles O49: ADC is `add8` with F.C in. -/
theorem adcAddsTheCarryUnderTheMode : Obligations.AdcAddsTheCarryUnderTheMode :=
  aluForms_of_aluNext aluNext_adc (by decide) rfl rfl rfl fun _ => rfl

/-- Settles O51: SBC is `sub8` with F.C in. -/
theorem sbcSubtractsTheBorrowUnderTheMode : Obligations.SbcSubtractsTheBorrowUnderTheMode :=
  aluForms_of_aluNext aluNext_sbc (by decide) rfl rfl rfl fun _ => rfl

/-! ### An operand that cannot be read (R162, D12) -/

theorem exec_aluHl_fault {i : Instr} {o : AluOp} {s : State} {x : Fault} (form : i.form = .alu o .atHL)
    (read : s.mem.read s.hl = .error x) : exec i s = .next (s.tick.raise x) := by
  rw [exec_eq_form, form]
  simp only [formMeaning, aluOperand, State.operand_atHL, readOperand_ind, memRead_error read, Res.bind_raised,
    Res.outcome_raised]

theorem aluHlRows_table : ∀ row ∈ aluHlRows, rowOf row.1 = .plain row.2 ∧ ∃ o, row.2.form = .alu o .atHL := by
  simp only [aluHlRows, List.forall_mem_cons]
  exact ⟨⟨rfl, _, rfl⟩, ⟨rfl, _, rfl⟩, ⟨rfl, _, rfl⟩, ⟨rfl, _, rfl⟩, ⟨rfl, _, rfl⟩, ⟨rfl, _, rfl⟩, ⟨rfl, _, rfl⟩,
    ⟨rfl, _, rfl⟩, nofun⟩

/-- Settles O56: the read comes before any write of A or F. -/
theorem aluOperandFaultWritesNothing : Obligations.AluOperandFaultWritesNothing := by
  intro op i inRows
  obtain ⟨row, o, form⟩ := aluHlRows_table _ inRows
  refine ⟨decode_plain row [], fun s x read => ⟨MemoryMap.read_error read, ?_, fun ready => ?_⟩⟩
  · rw [advanced_zero_one, exec_aluHl_fault form read, State.raise]
  · exact (step_plain ready row).trans (exec_aluHl_fault form read)

end Sys2Proof.Proofs
end

section
/-! PROOFS. The instructions that read and store at HL: INC and DEC of the byte there (42_alu.md R189, R191) and opcode 0x76
(41_load.md R143); and the illegal and the unsupported opcodes (43_illegal_unsupported.md). -/

namespace Sys2Proof.Proofs
open Sys2Proof Sys2Proof.Machine Sys2Proof.Claims Sys2Proof.Laws

/-! ### Reading and storing at HL -/

theorem tick_tick (s : State) : s.tick.tick = advanced s 0 2 := by
  simp [advanced, State.tick]

/-- What can be written can be read. -/
theorem exists_read_of_writable {s : State} {a : Word} (inv : s.Inv) (writable : Writable s a) :
    ∃ v, s.mem.read a = .ok v := by
  obtain ⟨-, fixed, -⟩ := inv
  obtain ⟨aboveRom, -, eramPresent⟩ := writable
  exact (exists_read_eq_ok_iff fixed a).mpr ⟨by omega, eramPresent⟩

/-- The two windows that can be read and not written (R55). -/
theorem write_error_of_window {m : MemoryMap} {a : Word} {x : Fault} (v : Byte)
    (window : a.toNat ≤ 0x7FFF ∧ x = .readOnlyWrite a ∨
      (0xFEA0 ≤ a.toNat ∧ a.toNat ≤ 0xFEFF) ∧ x = .prohibitedRegion a) :
    m.write a v = .error x := by
  obtain ⟨inRom, rfl⟩ | ⟨prohibited, rfl⟩ := window
  · exact write_readOnly m v inRom
  · exact write_prohibited m v prohibited

/-- Storing at an address the byte it reads changes no read. -/
theorem read_of_stored_back {m m' : MemoryMap} {a : Word} {v : Byte} (wf : m.wf = true) (read : m.read a = .ok v)
    (write : m.write a v = .ok m') (x : Word) : m'.read x = m.read x := by
  by_cases same : m.cellOf x.toNat = m.cellOf a.toNat
  · obtain ⟨-, -, st, i, cell, -, present, -⟩ := MemoryMap.write_ok write
    rw [MemoryMap.read_write_same wf write same, ← read, read_cell cell present, read_cell (same.trans cell) present]
  · exact MemoryMap.read_write_other write same

/-! ### INC [HL] and DEC [HL] (R189, R191) -/

/-- What INC (`subtract` false) and DEC (true) of the byte at HL have in common: read, write the count, set the flags. -/
def countAtHl (subtract : Bool) (count : Byte → Count) (s : State) : Res Unit :=
  (memRead s.hl s).bind fun v s1 =>
    (memWrite s.hl (count v).r s1).bind fun _ s2 =>
      .ok () (s2.setFlags ((count v).r == 0) subtract (count v).h (s2.flag .c))

theorem exec_incAtHL (s : State) : exec .incAtHL s = (countAtHl false inc8 s).outcome := rfl

theorem exec_decAtHL (s : State) : exec .decAtHL s = (countAtHl true dec8 s).outcome := rfl

section Count
variable {subtract : Bool} {count : Byte → Count} {s : State} {v : Byte}

theorem countAtHl_ok {m : MemoryMap} (read : s.mem.read s.hl = .ok v) (write : s.mem.write s.hl (count v).r = .ok m) :
    (countAtHl subtract count s).outcome =
      .next { s.tick.tick with mem := m, f := countFlags s (count v).r subtract (count v).h } := by
  have stored := memWrite_ok (s := s.tick) write
  simp only [countAtHl, memRead_ok read, Res.bind_ok, stored, Res.outcome_ok]
  rfl

theorem countAtHl_read_fault {x : Fault} (read : s.mem.read s.hl = .error x) :
    (countAtHl subtract count s).outcome = .next (s.tick.raise x) := by
  simp only [countAtHl, memRead_error read, Res.bind_raised, Res.outcome_raised]

theorem countAtHl_write_fault {x : Fault} (read : s.mem.read s.hl = .ok v)
    (write : s.mem.write s.hl (count v).r = .error x) :
    (countAtHl subtract count s).outcome = .next (s.tick.tick.raise x) := by
  have raised := memWrite_error (s := s.tick) write
  simp only [countAtHl, memRead_ok read, Res.bind_ok, raised, Res.bind_raised, Res.outcome_raised]

end Count

theorem countAtHl_claim {op : Byte} {i : Instr} {subtract : Bool} {count : Byte → Count} (row : rowOf op = .plain i)
    (meaning : ∀ s, exec i s = (countAtHl subtract count s).outcome) :
    CountAtHl op i subtract (fun v => (count v).r) (fun v => (count v).h) := by
  refine ⟨decode_plain row [], fun s inv writable => ?_⟩
  obtain ⟨v, read⟩ := exists_read_of_writable inv writable
  obtain ⟨m, stored⟩ := exists_storedAt inv writable (count v).r
  refine ⟨v, m, read, stored, ?_, fun ready => ?_⟩
  · rw [meaning, countAtHl_ok read stored.1, tick_tick]
  · exact (step_plain ready row).trans ((meaning _).trans (countAtHl_ok read stored.1))

/-- Settles O58: INC and DEC of the byte at HL are one sequence with two counts. -/
theorem incDecMemory : Obligations.IncDecMemory := by
  refine ⟨?inc, ?dec, fun i counts => ?faults⟩
  case inc => simpa only [inc8_eq] using countAtHl_claim (op := 0x34) rfl exec_incAtHL
  case dec => simpa only [dec8_eq] using countAtHl_claim (op := 0x35) rfl exec_decAtHL
  case faults =>
    obtain ⟨subtract, count, meaning⟩ : ∃ subtract count, ∀ s, exec i s = (countAtHl subtract count s).outcome := by
      obtain rfl | rfl := counts
      · exact ⟨false, inc8, exec_incAtHL⟩
      · exact ⟨true, dec8, exec_decAtHL⟩
    refine ⟨fun s x read => ⟨MemoryMap.read_error read, ?_⟩, fun s v x read window => ?_⟩
    · rw [meaning, countAtHl_read_fault read, advanced_zero_one, State.raise]
    · rw [meaning, countAtHl_write_fault read (write_error_of_window _ window), tick_tick, State.raise]

/-! ### Unsupported opcodes (R221, R222) -/

section Unsupported
variable {op : Byte} {s : State}

theorem unsupportedOpcode_marker (marker : s.config.unsupportedPolicy = .marker) :
    (unsupportedOpcode op s).outcome =
      .next { s with unsupportedSeen := some (s.unsupportedSeen.getD (s.pc - 1, op)) } := by
  unfold unsupportedOpcode
  rw [marker]
  cases seen : s.unsupportedSeen with
  | none => rfl
  | some first =>
    refine congrArg Host.Outcome.next ?_
    rw [Option.getD_some, ← seen]

theorem unsupportedOpcode_refuse (refuse : s.config.unsupportedPolicy = .refuse) :
    (unsupportedOpcode op s).outcome = .next { s with status := .refused (s.pc - 1) op } := by
  unfold unsupportedOpcode
  rw [refuse]
  rfl

/-- The step of an instruction that means its unsupported opcode records the address of that opcode. -/
theorem step_unsupported_marker {i : Instr} (row : rowOf op = .plain i)
    (meaning : exec i (advanced s 1 1) = (unsupportedOpcode op (advanced s 1 1)).outcome)
    (marker : s.config.unsupportedPolicy = .marker) (ready : Ready s [op]) :
    step s = .next { advanced s 1 1 with unsupportedSeen := some (s.unsupportedSeen.getD (s.pc, op)) } := by
  rw [step_plain ready row, meaning, unsupportedOpcode_marker (s := advanced s 1 1) marker, advanced_one_pc_sub_one]
  rfl

theorem step_unsupported_refuse {i : Instr} (row : rowOf op = .plain i)
    (meaning : exec i (advanced s 1 1) = (unsupportedOpcode op (advanced s 1 1)).outcome)
    (refuse : s.config.unsupportedPolicy = .refuse) (ready : Ready s [op]) :
    step s = .next { advanced s 1 1 with status := .refused s.pc op } := by
  rw [step_plain ready row, meaning, unsupportedOpcode_refuse (s := advanced s 1 1) refuse, advanced_one_pc_sub_one]

end Unsupported

theorem encodes_unsupported {op : Byte} (unsupported : op ∈ unsupportedOpcodes) : Encodes [op] (.unsupported op) :=
  encodes_encode ((wf_unsupported_iff op).mpr unsupported)

/-- Settles O60: the two policies, and the address that the step records. -/
theorem unsupportedOpcodeUnderBothPolicies : Obligations.UnsupportedOpcodeUnderBothPolicies := by
  intro op unsupported
  have encoded := encodes_unsupported unsupported
  have row := rowOf_of_encodes encoded
  exact ⟨encoded, fun s marker => ⟨unsupportedOpcode_marker marker, step_unsupported_marker row rfl marker⟩,
    fun s refuse => ⟨unsupportedOpcode_refuse refuse, step_unsupported_refuse row rfl refuse⟩⟩

/-! ### Illegal opcodes (R220) -/

theorem step_illegal {op : Byte} {s : State} (illegal : op ∈ illegalOpcodes) (ready : Ready s [op]) :
    step s = .next { advanced s 1 1 with status := .faulted (.illegalOpcode s.pc op) } := by
  rw [step_of_encodes (decode_illegal illegal []) ready, exec_illegal, advanced_one_pc_sub_one, State.raise]

theorem core_step_faulted {s : State} {x : Fault} (faulted : s.status = .faulted x) : core.step s = .fault x :=
  noStepFromATerminalStatus.1 s x faulted

/-- Settles O59: the second step finds the status that the first one left. -/
theorem illegalOpcodeEndsTheRun : Obligations.IllegalOpcodeEndsTheRun := by
  intro op illegal
  refine ⟨decode_illegal illegal [], exec_illegal op, fun s ready => ⟨step_illegal illegal ready, ?_⟩⟩
  have first : core.step s = _ := step_illegal illegal ready
  have second : core.step { advanced s 1 1 with status := .faulted (.illegalOpcode s.pc op) } =
    .fault (.illegalOpcode s.pc op) := core_step_faulted rfl
  simp only [Host.Core.run, first, second]

/-! ### Opcode 0x76 (R143; D2) -/

theorem rowOf_0x76 : rowOf 0x76 = .plain .ldAtHLAtHL := rfl

section Load
variable {s : State} {v : Byte} (load : s.config.opc76Policy = .documentLoad)
include load

theorem exec_ldAtHLAtHL {m : MemoryMap} (read : s.mem.read s.hl = .ok v) (write : s.mem.write s.hl v = .ok m) :
    exec .ldAtHLAtHL s = .next { s.tick.tick with mem := m } := by
  have stored := memWrite_ok (s := s.tick) write
  rw [exec_eq_form]
  simp only [Instr.form, formMeaning, loadOrUnsupported, load, loadOperand, State.operand_atHL, readOperand_ind,
    memRead_ok read, Res.bind_ok, writeOperand_ind, stored, Res.outcome_ok]

theorem exec_ldAtHLAtHL_read_fault {x : Fault} (read : s.mem.read s.hl = .error x) :
    exec .ldAtHLAtHL s = .next (s.tick.raise x) := by
  rw [exec_eq_form]
  simp only [Instr.form, formMeaning, loadOrUnsupported, load, loadOperand, State.operand_atHL, readOperand_ind,
    memRead_error read, Res.bind_raised, Res.outcome_raised]

theorem exec_ldAtHLAtHL_write_fault {x : Fault} (read : s.mem.read s.hl = .ok v) (write : s.mem.write s.hl v = .error x) :
    exec .ldAtHLAtHL s = .next (s.tick.tick.raise x) := by
  have raised := memWrite_error (s := s.tick) write
  rw [exec_eq_form]
  simp only [Instr.form, formMeaning, loadOrUnsupported, load, loadOperand, State.operand_atHL, readOperand_ind,
    memRead_ok read, Res.bind_ok, writeOperand_ind, raised, Res.outcome_raised]

end Load

theorem exec_ldAtHLAtHL_unsupported {s : State} (policy : s.config.opc76Policy = .unsupported) :
    exec .ldAtHLAtHL s = (unsupportedOpcode 0x76 s).outcome := by
  rw [exec_eq_form]
  simp only [Instr.form, formMeaning, loadOrUnsupported, policy]

/-- Settles O47: under DocumentLoad the byte read is the byte stored, so no read changes; under Unsupported 0x76 is one more
unsupported opcode. -/
theorem opcode76FollowsItsPolicy : Obligations.Opcode76FollowsItsPolicy := by
  refine ⟨decode_plain rowOf_0x76 [], fun s load inv writable => ?stored, fun s x load read => ?readFault,
    fun s v x load read window => ?writeFault, fun s policy => ?unsupported⟩
  case stored =>
    obtain ⟨v, read⟩ := exists_read_of_writable inv writable
    obtain ⟨m, stored⟩ := exists_storedAt inv writable v
    obtain ⟨-, -, wf⟩ := inv
    refine ⟨v, m, read, stored, read_of_stored_back wf read stored.1, ?_, fun ready => ?_⟩
    · rw [exec_ldAtHLAtHL load read stored.1, tick_tick]
    · exact (step_plain ready rowOf_0x76).trans (exec_ldAtHLAtHL (s := advanced s 1 1) load read stored.1)
  case readFault =>
    refine ⟨MemoryMap.read_error read, ?_, fun ready => ?_⟩
    · rw [exec_ldAtHLAtHL_read_fault load read, advanced_zero_one, State.raise]
    · exact (step_plain ready rowOf_0x76).trans (exec_ldAtHLAtHL_read_fault (s := advanced s 1 1) load read)
  case writeFault =>
    have write := write_error_of_window (m := s.mem) v window
    refine ⟨?_, fun ready => ?_⟩
    · rw [exec_ldAtHLAtHL_write_fault load read write, tick_tick, State.raise]
    · exact (step_plain ready rowOf_0x76).trans (exec_ldAtHLAtHL_write_fault (s := advanced s 1 1) load read write)
  case unsupported =>
    have meaning := exec_ldAtHLAtHL_unsupported policy
    have fetched : exec .ldAtHLAtHL (advanced s 1 1) = _ := exec_ldAtHLAtHL_unsupported policy
    exact ⟨meaning, fun marker => ⟨meaning.trans (unsupportedOpcode_marker marker),
      step_unsupported_marker rowOf_0x76 fetched marker⟩, fun refuse => ⟨meaning.trans (unsupportedOpcode_refuse refuse),
      step_unsupported_refuse rowOf_0x76 fetched refuse⟩⟩

/-! ### Register pairs (10_state.md R22) -/

/-- Settles O3: each pair by its two registers. -/
theorem pairsComposeHighByteFirst : Obligations.PairsComposeHighByteFirst :=
  ⟨fun _ => ⟨rfl, rfl, rfl, rfl⟩, fun _ _ => ⟨rfl, rfl, rfl, rfl⟩⟩

end Sys2Proof.Proofs
end
